-- ==== Sys2Proof/Word.lean ====
section
/-! DEFINITION. The word types of the block: bytes of the wire, 16-bit CRC and counter words, 32-bit host words (R8, R9, R10). -/

namespace Sys2Proof

/-- One byte of the wire stream (R21, R60(b)). -/
abbrev Byte := BitVec 8

/-- A 16-bit word: the CRC, `SIL`, `CFG.QUIET` and the counters (R8, R22). -/
abbrev Half := BitVec 16

/-- A 32-bit host register or command word (R8, R81). -/
abbrev Word := BitVec 32

/-- A byte sequence in wire order: index 0 is the first byte on the wire (R10, R66). -/
abbrev Frame := List Byte

end Sys2Proof
end

