-- ==== Sys2Proof/Config.lean ====
section
/-! DEFINITION. The implementation parameters of R8 (and `BASE` of R64), their legal ranges, and the values R8 fixes. -/

namespace Sys2Proof

/-- The OPEN parameters of R8 and R64.
They are fixed for one machine: no step changes them.
Assumption log 1 says where the model keeps them. -/
structure Params where
  /-- `MAX_FRAME`: capacity in bytes of the assembly buffer and of every FIFO entry (R8, D10). -/
  maxFrame : Nat
  /-- `RXQ_DEPTH`: entries of the received-frame FIFO (R8, D11). -/
  rxqDepth : Nat
  /-- `TICK_PERIOD`: real time between two `Tick` events, in a time unit of the reader's choice
  (R8, D5).
  No step reads it; Machine/Time.lean does (R138). -/
  tickPeriod : Nat
  /-- `BASE`: the platform address of offset 0 (R64).
  No step reads it; Machine/Inputs.lean turns platform addresses into offsets with it. -/
  base : Nat
deriving DecidableEq, Repr

/-- The legal ranges of R8: 4 ≤ MAX_FRAME ≤ 256 and 1 ≤ RXQ_DEPTH ≤ 255.
That the tick period is positive is DEDUCED from its being a time between two events (log 1). -/
abbrev Params.Legal (p : Params) : Prop :=
  (4 ≤ p.maxFrame ∧ p.maxFrame ≤ 256) ∧ (1 ≤ p.rxqDepth ∧ p.rxqDepth ≤ 255) ∧ 0 < p.tickPeriod

/-- The values R8 recommends: MAX_FRAME 256, RXQ_DEPTH 2, TICK_PERIOD 1 ms, counted here as 1000 µs.
`BASE` has no recommendation; 0 is a DESIGN CHOICE (log 1). -/
def Params.recommended : Params :=
  { maxFrame := 256, rxqDepth := 2, tickPeriod := 1000, base := 0 }

namespace Config

/-- `MAX_INPUTS`: the number of inputs the read-response extractor exposes (R8, D19). -/
def maxInputs : Nat := 16

/-- Reset value of `CFG.QUIET`, in ticks (R8, R24). -/
def quietReset : Half := 30

/-- Reset value of `CFG.INCOUNT` (R24). -/
def incountReset : BitVec 5 := 12

/-- Seed and reset value of the CRC register (R112, R22). -/
def crcSeed : Half := 0xFFFF

/-- The longest frame any legal `MAX_FRAME` lets through (R8). -/
def longestFrame : Nat := 256

end Config

end Sys2Proof
end

