-- ==== Sys2Proof/Machine/Crc.lean ====
section
/-! DEFINITION. The CRC-16 engine as pure functions: R110 to R114. -/

namespace Sys2Proof.Machine

/-- The byte at index `i` of a sequence; 0x00 past its end, as in R65 and R197. -/
def byteAt (s : Frame) (i : Nat) : Byte := s.getD i 0

/-- One shift step (R110): the bit shifted out decides whether the mask 0xA001 is applied. -/
def crcShift (c : Half) : Half :=
  if c.getLsbD 0 then (c >>> 1) ^^^ 0xA001#16 else c >>> 1

/-- `n` shift steps. -/
def crcShifts : Nat → Half → Half
  | 0, c => c
  | n + 1, c => crcShifts n (crcShift c)

/-- One byte update (R111): the byte goes into the low 8 bits, then eight shift steps. -/
def crcUpdate (c : Half) (b : Byte) : Half := crcShifts 8 (c ^^^ b.setWidth 16)

/-- `compute` (R112): the seed 0xFFFF, every byte in order, no final XOR. -/
def crc16 (s : Frame) : Half := s.foldl crcUpdate Config.crcSeed

/-- `lowByte` of R10. -/
def lowByte (x : Half) : Byte := x.extractLsb' 0 8

/-- `highByte` of R10. -/
def highByte (x : Half) : Byte := x.extractLsb' 8 8

/-- `append` (R113): the CRC follows the bytes, low byte first. -/
def crcAppend (s : Frame) : Frame := s ++ [lowByte (crc16 s), highByte (crc16 s)]

/-- The bytes before the last two: `s[0 .. n-3]` of R114 and R183. -/
def crcBody (s : Frame) : Frame := s.take (s.length - 2)

/-- The last two bytes, low byte first, as R66 reads a CRC at the end of `s`. -/
def crcTrailer (s : Frame) : Half :=
  (byteAt s (s.length - 2)).setWidth 16 ||| ((byteAt s (s.length - 1)).setWidth 16 <<< 8)

/-- `verify` (R114): false below two bytes (D15), else the recomputed CRC against the trailer. -/
def crcVerify (s : Frame) : Bool :=
  if s.length < 2 then false else crc16 (crcBody s) == crcTrailer s

end Sys2Proof.Machine
end

