-- ==== Sys2Proof/Syntax.lean ====
section
/-! DEFINITION. The instructions: one constructor for every row of spec/opcode_table.json (15 CMD32 rows, 2 EVENT rows, 6 WIRE rows). -/

namespace Sys2Proof

/-- The three relay modes of R84 and R90. -/
inductive RelayMode where
  | on
  | off
  | moment
deriving DecidableEq, Repr

/-- The five interlock modes of R85 and R91. -/
inductive IlockMode where
  | unrelated
  | selfInterlock
  | interlocking
  | momentary
  | interlockVariant2
deriving DecidableEq, Repr

/-- Where the bits of an instruction come from.
Commands come from the host's `CMD` register (R80), a received byte from the line (R131), a tick from
the time base (R132), and a wire frame in one of its two directions: the same bytes are a request or a
response by direction alone (R96). -/
inductive Channel where
  | command
  | lineByte
  | timeBase
  | request
  | response
deriving DecidableEq, Repr

/-- The direction of a wire frame (R96). -/
inductive Direction where
  | request
  | response
deriving DecidableEq, Repr

/-- The instructions of the block.
A bit that R82 says a command ignores is no operand and does not appear. -/
inductive Instr where
  /-- NOP (R161) -/
  | nop
  /-- ENC_READ: F0 address (R162) -/
  | encRead (address : Byte)
  /-- ENC_RELAY.ON: F0 address, F1 index, F2 delay (R163) -/
  | encRelayOn (address relayIndex delay : Byte)
  /-- ENC_RELAY.OFF (R163) -/
  | encRelayOff (address relayIndex delay : Byte)
  /-- ENC_RELAY.MOMENT (R163) -/
  | encRelayMoment (address relayIndex delay : Byte)
  /-- ENC_RELAY.RSV: the reserved relay selector (R164) -/
  | encRelayRsv
  /-- ENC_ILOCK: F0 address, SUB[2:0] mode selector (R165) -/
  | encIlock (address : Byte) (modeSel : BitVec 3)
  /-- CRC_INIT (R117) -/
  | crcInit
  /-- CRC_BYTE: F0 data (R118) -/
  | crcByte (data : Byte)
  /-- RX_POP (R198) -/
  | rxPop
  /-- RX_ABORT (R140) -/
  | rxAbort
  /-- CNT_CLEAR (R227) -/
  | cntClear
  /-- RESERVED.9: OP 0x9 (R86) -/
  | reserved9
  /-- RESERVED.A-B: OP 0xA or 0xB, by OP bit 0 (R86) -/
  | reservedAB (low : BitVec 1)
  /-- RESERVED.C-F: OP 0xC to 0xF, by OP bits 1 and 0 (R86) -/
  | reservedCF (low : BitVec 2)
  /-- RxByte: the line delivers one byte (R131) -/
  | rxByte (b : Byte)
  /-- Tick: the time base delivers one tick (R132) -/
  | tick
  /-- WRQ-READ, the read-inputs request on the wire (R89) -/
  | wrqRead (address crcLow crcHigh : Byte)
  /-- WRQ-RELAY, the write-relay request on the wire (R90) -/
  | wrqRelay (address relayIndex : Byte) (mode : RelayMode) (delay crcLow crcHigh : Byte)
  /-- WRQ-ILOCK, the set-interlock request on the wire (R91) -/
  | wrqIlock (address : Byte) (mode : IlockMode) (crcLow crcHigh : Byte)
  /-- WRS-READ, a read-inputs response on the wire (R92) -/
  | wrsRead (address : Byte) (payload : List Byte) (crcLow crcHigh : Byte)
  /-- WRS-ACK, a write acknowledgement on the wire (R93) -/
  | wrsAck (address : Byte) (payload : List Byte) (crcLow crcHigh : Byte)
  /-- WRS-OTHER, a received frame of any other function code (R94) -/
  | wrsOther (address functionCode : Byte) (payload : List Byte) (crcLow crcHigh : Byte)
deriving DecidableEq, Repr

end Sys2Proof
end

