-- ==== Sys2Proof/Machine/Operands.lean ====
section
/-! DEFINITION. Every operand form: the fields of a command word (R81, R82), the mode maps (R84, R85), byte lanes and 16-bit wire fields (R65, R66), and the bytes of the wire formats (R88 to R94). -/

namespace Sys2Proof.Machine

/-- OP, bits 3:0 (R81). -/
def cmdOp (w : Word) : BitVec 4 := w.extractLsb' 0 4
/-- SUB, bits 7:4 (R81). -/
def cmdSub (w : Word) : BitVec 4 := w.extractLsb' 4 4
/-- F0, bits 15:8 (R81). -/
def cmdF0 (w : Word) : Byte := w.extractLsb' 8 8
/-- F1, bits 23:16 (R81). -/
def cmdF1 (w : Word) : Byte := w.extractLsb' 16 8
/-- F2, bits 31:24 (R81). -/
def cmdF2 (w : Word) : Byte := w.extractLsb' 24 8
/-- `modeSel = SUB[1:0]` of ENC_RELAY (R82). -/
def cmdModeSel (w : Word) : BitVec 2 := w.extractLsb' 4 2
/-- `modeSel3 = SUB[2:0]` of ENC_ILOCK (R82). -/
def cmdModeSel3 (w : Word) : BitVec 3 := w.extractLsb' 4 3

/-- The CMD32 word with these fields (R81). -/
def cmdWord (op sub : BitVec 4) (f0 f1 f2 : Byte) : Word := f2 ++ f1 ++ f0 ++ sub ++ op

/-- The mode byte of a relay mode (R84, R90). -/
def relayModeByte : RelayMode → Byte
  | .on => 0x01
  | .off => 0x02
  | .moment => 0x05

/-- The mode code of an interlock mode (R85, R91). -/
def ilockModeByte : IlockMode → Byte
  | .unrelated => 0x00
  | .selfInterlock => 0x01
  | .interlocking => 0x02
  | .momentary => 0x03
  | .interlockVariant2 => 0x04

/-- The interlock mode that SUB[2:0] selects: 5, 6 and 7 name no mode and encode 0x00 (R85, R165). -/
def ilockModeOfSel (sel : BitVec 3) : IlockMode :=
  match sel.toNat with
  | 1 => .selfInterlock
  | 2 => .interlocking
  | 3 => .momentary
  | 4 => .interlockVariant2
  | _ => .unrelated

/-- The relay mode of a wire mode byte, if it is one of the three of R90. -/
def relayModeOfByte (m : Byte) : Option RelayMode :=
  if m == 0x01 then some .on
  else if m == 0x02 then some .off
  else if m == 0x05 then some .moment
  else none

/-- The interlock mode of a wire mode code, if it is one of the five of R85. -/
def ilockModeOfByte (c : Byte) : Option IlockMode :=
  if c == 0x00 then some .unrelated
  else if c == 0x01 then some .selfInterlock
  else if c == 0x02 then some .interlocking
  else if c == 0x03 then some .momentary
  else if c == 0x04 then some .interlockVariant2
  else none

/-- A 16-bit wire field at index `i`, high byte first (R66). -/
def field16 (s : Frame) (i : Nat) : Half :=
  ((byteAt s i).setWidth 16 <<< 8) ||| (byteAt s (i + 1)).setWidth 16

/-- Four bytes in the little-endian lanes of the register bus (R65). -/
def laneWord (b0 b1 b2 b3 : Byte) : Word :=
  b0.setWidth 32 ||| (b1.setWidth 32 <<< 8) ||| (b2.setWidth 32 <<< 16) ||| (b3.setWidth 32 <<< 24)

/-- `word(s, k)` of R65; an index past the run reads 0x00. -/
def runWord (s : Frame) (k : Nat) : Word :=
  laneWord (byteAt s k) (byteAt s (k + 1)) (byteAt s (k + 2)) (byteAt s (k + 3))

/-- The `n` low bytes of a number, the least significant first. -/
def leBytes : Nat → Nat → Frame
  | 0, _ => []
  | n + 1, w => BitVec.ofNat 8 w :: leBytes n (w / 256)

/-- Body of the read-inputs request (R89, R162): a fixed window of 12 registers from 0x0081. -/
def readBody (address : Byte) : Frame := [address, 0x03, 0x00, 0x81, 0x00, 0x0C]

/-- Body of the write-relay request (R90, R163). -/
def relayBody (address relayIndex : Byte) (mode : RelayMode) (delay : Byte) : Frame :=
  [address, 0x06, 0x00, relayIndex, relayModeByte mode, delay]

/-- Body of the set-interlock request (R91, R165). -/
def ilockBody (address : Byte) (mode : IlockMode) : Frame :=
  [address, 0x06, 0x00, 0xFD, 0x00, ilockModeByte mode]

/-- A wire frame (R88): address, function code, payload, CRC low, CRC high. -/
def wireFrame (address functionCode : Byte) (payload : Frame) (crcLow crcHigh : Byte) : Frame :=
  address :: functionCode :: (payload ++ [crcLow, crcHigh])

end Sys2Proof.Machine
end

