-- ==== Sys2Proof/Machine/Decoder.lean ====
section
/-! DEFINITION. The response decoder: every decoded field of a frame `h` as the pure function R181 to R197 give it. -/

namespace Sys2Proof.Machine

/-- LEN (R181). -/
def frameLen (h : Frame) : Nat := h.length

/-- ADDR (R182). -/
def frameAddr (h : Frame) : Byte := byteAt h 0

/-- FUNC, 0x00 for a one-byte frame (R182). -/
def frameFunc (h : Frame) : Byte := if 2 ≤ h.length then byteAt h 1 else 0x00

/-- CRC_RX (R183). -/
def frameCrcRx (h : Frame) : Half := if 2 ≤ h.length then crcTrailer h else 0x0000

/-- CRC_CALC (R183). -/
def frameCrcCalc (h : Frame) : Half := if 2 ≤ h.length then crc16 (crcBody h) else 0x0000

/-- CRC_MATCH (R184). -/
def frameCrcMatch (h : Frame) : Bool := crcVerify h

/-- RUNT (R185). -/
def frameRunt (h : Frame) : Bool := h.length < 4

/-- CRC_OK, and `crc_ok(f)` of any frame (R185). -/
def frameCrcOk (h : Frame) : Bool := frameCrcMatch h && !frameRunt h

/-- The payload: the bytes between the function code and the CRC (R186). -/
def framePayload (h : Frame) : Frame := (h.drop 2).take (h.length - 4)

/-- PLEN (R186). -/
def framePlen (h : Frame) : Nat := h.length - 4

/-- ISREAD (R188). -/
def frameIsRead (h : Frame) : Bool := frameCrcOk h && frameFunc h == 0x03

/-- BCNT (R189). -/
def frameBcnt (h : Frame) : Byte :=
  if frameIsRead h && 1 ≤ framePlen h then byteAt (framePayload h) 0 else 0x00

/-- The register data RD, after the byte count (R190). -/
def frameRegData (h : Frame) : Frame := (framePayload h).drop 1

/-- NREG: the complete registers in the frame; the byte count is not consulted (R190). -/
def frameNreg (h : Frame) : Nat :=
  if frameIsRead h && 1 ≤ framePlen h then (framePlen h - 1) / 2 else 0

/-- VALID[i] (R191); an input at 16 or above is never exposed. -/
def frameValid (h : Frame) (incount : BitVec 5) (i : Nat) : Bool :=
  frameIsRead h && i < Config.maxInputs && i < incount.toNat && i < frameNreg h

/-- VALUE(i): the low byte of register `i` (R192). -/
def frameValue (h : Frame) (incount : BitVec 5) (i : Nat) : Byte :=
  if frameValid h incount i then byteAt (frameRegData h) (2 * i + 1) else 0x00

/-- BCMIS (R193). -/
def frameBcmis (h : Frame) : Bool :=
  frameIsRead h && 1 ≤ framePlen h && (frameBcnt h).toNat != framePlen h - 1

/-- ISACK (R194). -/
def frameIsAck (h : Frame) : Bool := frameCrcOk h && frameFunc h == 0x06

/-- ACK_REG (R195). -/
def frameAckReg (h : Frame) : Half :=
  if frameIsAck h && 2 ≤ framePlen h then field16 (framePayload h) 0 else 0x0000

/-- ACK_VAL (R196). -/
def frameAckVal (h : Frame) : Half :=
  if frameIsAck h && 4 ≤ framePlen h then field16 (framePayload h) 2 else 0x0000

/-- The RXDATA window word `w` (R197). -/
def frameWindow (h : Frame) (w : Nat) : Word := runWord h (4 * w)

end Sys2Proof.Machine
end

