-- ==== Sys2Proof/Machine/State.lean ====
section
/-! DEFINITION. The state: the record of R22, the parameters of R8, and the model's own input queue and read-data output; the reasons a step could stop; reset (R250). -/

namespace Sys2Proof.Machine

/-- The reasons the block stops with a fault: none.
R7: "The block never halts, never stops by itself and has no terminal state"; R220: no event stops or
stalls it. -/
inductive Fault
deriving DecidableEq, Repr

/-- The reasons a step is refused. -/
inductive Refusal where
  /-- Raised only by an arm of `exec` whose instruction has no meaning yet; safe. No arm is one. -/
  | notModelled (mnemonic : String)
deriving DecidableEq, Repr

/-- The 8 bytes of `TXBUF`, in wire order (R22, R29, R30). -/
structure TxBuf where
  b0 : Byte
  b1 : Byte
  b2 : Byte
  b3 : Byte
  b4 : Byte
  b5 : Byte
  b6 : Byte
  b7 : Byte
deriving DecidableEq, Repr

/-- The complete state of the block: one field for each row of R22's table. -/
structure Block where
  /-- `CTRL.EN` (R23) -/
  en : Bool
  /-- `CTRL.IE_RX` (R23) -/
  ieRx : Bool
  /-- `CTRL.IE_ERR` (R23) -/
  ieErr : Bool
  /-- `CTRL.DROPBAD` (R23) -/
  dropbad : Bool
  /-- `CFG.QUIET`, in ticks (R24) -/
  quiet : Half
  /-- `CFG.INCOUNT` (R24) -/
  incount : BitVec 5
  /-- `CRC`, the host CRC register (R27) -/
  crc : Half
  /-- `TXBUF` (R29, R30) -/
  txbuf : TxBuf
  /-- `TXLEN` (R28) -/
  txlen : Nat
  /-- `ASM`, the bytes of the frame being assembled (R130) -/
  asm : Frame
  /-- `SIL`, the silence counter (R130, R234) -/
  sil : Half
  /-- `FIFO`, the closed frames, oldest first (R133, R198) -/
  fifo : List Frame
  /-- `CMDERR`, sticky (R26) -/
  cmderr : Bool
  /-- `DROPERR`, sticky (R26) -/
  droperr : Bool
  /-- `CRCERR`, sticky (R26) -/
  crcerr : Bool
  /-- `CNT_FRAMES`, saturating (R226) -/
  cntFrames : Half
  /-- `CNT_CRCERR`, saturating (R226) -/
  cntCrcerr : Half
  /-- `CNT_DROP`, saturating (R226) -/
  cntDrop : Half
deriving DecidableEq, Repr

/-- A host access: `HostRead(off)` or `HostWrite(off, v)` of R5, with the width in bytes that R61 tests.
A write narrower than 32 bits carries its data in `v`; R61 ignores it whatever it is. -/
inductive Access where
  | read (off bytes : Nat)
  | write (off bytes : Nat) (v : Word)
deriving DecidableEq, Repr

/-- What the pins show the block in one clock cycle: at most one host access, one tick and one received
byte, and the reset input (R229). -/
structure Cycle where
  reset : Bool := false
  host : Option Access := none
  tick : Bool := false
  rx : Option Byte := none
deriving DecidableEq, Repr

/-- One entry of the input queue: a clock cycle, or a wire frame about to come in on the line, back to back as in
the `RXF` line of R97.
A frame is no event: each of its bytes is one, in a step of its own (R5; log 4). -/
inductive Input where
  | cycle (c : Cycle)
  | frame (d : Direction) (bs : Frame)
deriving DecidableEq, Repr

/-- The events of R5, `access` being HostRead or HostWrite.
A step takes one of them, or none where there is none to take (log 2).
`reset` carries the host access of its cycle, which R250 says has no effect. -/
inductive Event where
  | reset (a : Option Access)
  | access (a : Access)
  | rxByte (b : Byte)
  | tick
deriving DecidableEq, Repr

/-- The machine. -/
structure State where
  /-- the parameters of R8, the same in every state of a run (log 1) -/
  params : Params
  /-- the state of the block itself (R22) -/
  block : Block
  /-- what the host, the line and the time base do next, in time order: the model's own field (log 2) -/
  inputs : List Input
  /-- the read data of the last step, if it was a host read: the observation of R5, the model's own field
  (log 5) -/
  rdata : Option Word
deriving DecidableEq, Repr

/-- What a step answers. -/
abbrev StepOutcome := Host.Outcome State Fault Refusal

/-- `TXBUF` with all bytes 0x00 (R250). -/
def TxBuf.zero : TxBuf := ⟨0, 0, 0, 0, 0, 0, 0, 0⟩

/-- The reset column of R22 (R250). -/
def Block.reset : Block :=
  { en := false, ieRx := false, ieErr := false, dropbad := false,
    quiet := Config.quietReset, incount := Config.incountReset,
    crc := Config.crcSeed, txbuf := TxBuf.zero, txlen := 0,
    asm := [], sil := 0, fifo := [],
    cmderr := false, droperr := false, crcerr := false,
    cntFrames := 0, cntCrcerr := 0, cntDrop := 0 }

/-- The machine with parameters `p` right after reset, before any input. -/
def State.resetWith (p : Params) : State :=
  { params := p, block := Block.reset, inputs := [], rdata := none }

/-- The machine right after reset, at the parameter values R8 recommends (log 1). -/
def State.reset : State := State.resetWith Params.recommended

/-- The same machine with another block state. -/
def State.withBlock (s : State) (b : Block) : State := { s with block := b }

/-- The same machine with another input queue. -/
def State.withInputs (s : State) (q : List Input) : State := { s with inputs := q }

/-- The same machine with another read-data output. -/
def State.withRdata (s : State) (r : Option Word) : State := { s with rdata := r }

end Sys2Proof.Machine
end

