-- ==== Sys2Proof/Machine/Flags.lean ====
section
/-! DEFINITION. Every flag computation: register words packed from their fields (R23 to R38), the interrupt level (R228), and the saturating increment (R226, R132). -/

namespace Sys2Proof.Machine

/-- A one-bit field at bit `k` of a host register. -/
def flagBit (f : Bool) (k : Nat) : Word := (BitVec.ofBool f).setWidth 32 <<< k

/-- `min(x + 1, 0xFFFF)` (R132, R226). -/
def satInc (x : Half) : Half := if x == 0xFFFF then 0xFFFF else x + 1

/-- The bytes of `TXBUF` in wire order. -/
def TxBuf.toFrame (t : TxBuf) : Frame := [t.b0, t.b1, t.b2, t.b3, t.b4, t.b5, t.b6, t.b7]

/-- `TXBUF` filled from the first 8 bytes of a frame. -/
def TxBuf.ofFrame (f : Frame) : TxBuf :=
  ⟨byteAt f 0, byteAt f 1, byteAt f 2, byteAt f 3, byteAt f 4, byteAt f 5, byteAt f 6, byteAt f 7⟩

/-- STATUS.RXNE (R26). -/
def Block.rxne (b : Block) : Bool := 0 < b.fifo.length

/-- STATUS.RXFULL (R26). -/
def Block.rxfull (p : Params) (b : Block) : Bool := b.fifo.length == p.rxqDepth

/-- STATUS.ASM (R26). -/
def Block.assembling (b : Block) : Bool := 0 < b.asm.length

/-- Some sticky error bit is 1 (R228). -/
def Block.anyError (b : Block) : Bool := b.cmderr || b.droperr || b.crcerr

/-- The interrupt output, a pure function of the state (R228). -/
def Block.irq (b : Block) : Bool := (b.ieRx && b.rxne) || (b.ieErr && b.anyError)

/-- The read value of CTRL (R23). -/
def ctrlWord (b : Block) : Word :=
  flagBit b.en 0 ||| flagBit b.ieRx 1 ||| flagBit b.ieErr 2 ||| flagBit b.dropbad 3

/-- The read value of CFG (R24). -/
def cfgWord (b : Block) : Word := (b.incount.setWidth 32 <<< 16) ||| b.quiet.setWidth 32

/-- The read value of STATUS (R26). -/
def statusWord (p : Params) (b : Block) : Word :=
  flagBit b.rxne 0 ||| flagBit (b.rxfull p) 1 ||| flagBit b.assembling 2
    ||| flagBit b.cmderr 4 ||| flagBit b.droperr 5 ||| flagBit b.crcerr 6
    ||| (BitVec.ofNat 32 b.fifo.length <<< 8) ||| (BitVec.ofNat 32 b.asm.length <<< 16)

/-- The read value of RXINFO for the head frame (R31). -/
def rxinfoWord (h : Frame) : Word :=
  (BitVec.ofNat 9 (frameLen h)).setWidth 32
    ||| flagBit (frameCrcMatch h) 9 ||| flagBit (frameCrcOk h) 10 ||| flagBit (frameRunt h) 11
    ||| flagBit (frameIsRead h) 12 ||| flagBit (frameIsAck h) 13 ||| flagBit (frameBcmis h) 14
    ||| ((frameAddr h).setWidth 32 <<< 16) ||| ((frameFunc h).setWidth 32 <<< 24)

/-- The read value of RXCRC for the head frame (R32). -/
def rxcrcWord (h : Frame) : Word :=
  ((frameCrcCalc h).setWidth 32 <<< 16) ||| (frameCrcRx h).setWidth 32

/-- The read value of RXACK for the head frame (R33). -/
def rxackWord (h : Frame) : Word :=
  ((frameAckVal h).setWidth 32 <<< 16) ||| (frameAckReg h).setWidth 32

/-- The VALID bits, bit `i` for input `i`, up to input `n - 1` (R34, R191). -/
def validBits (h : Frame) (incount : BitVec 5) : Nat → Word
  | 0 => 0
  | n + 1 => validBits h incount n ||| flagBit (frameValid h incount n) n

/-- The read value of RXREAD for the head frame (R34). -/
def rxreadWord (h : Frame) (incount : BitVec 5) : Word :=
  (frameBcnt h).setWidth 32 ||| ((BitVec.ofNat 8 (frameNreg h)).setWidth 32 <<< 8)
    ||| (validBits h incount Config.maxInputs <<< 16)

/-- The read value of RXVAL`k` for the head frame (R35). -/
def rxvalWord (h : Frame) (incount : BitVec 5) (k : Nat) : Word :=
  laneWord (frameValue h incount (4 * k)) (frameValue h incount (4 * k + 1))
    (frameValue h incount (4 * k + 2)) (frameValue h incount (4 * k + 3))

/-- The read value of CNT0 (R36). -/
def cnt0Word (b : Block) : Word := (b.cntCrcerr.setWidth 32 <<< 16) ||| b.cntFrames.setWidth 32

/-- The read value of CNT1 (R37). -/
def cnt1Word (b : Block) : Word := b.cntDrop.setWidth 32

end Sys2Proof.Machine
end

