-- ==== Sys2Proof/Machine/Ops.lean ====
section
/-! DEFINITION. The shared operations on the block: recording an error event and clearing it, the delimiter's frame handling, the FIFO, the encode step and the register writes. -/

namespace Sys2Proof.Machine

/-- The error events of R221. -/
inductive ErrorEvent where
  | cmdReserved
  | rxDrop
  | crcInvalid
deriving DecidableEq, Repr

/-- The cause code of an event: the STATUS bit number of its sticky bit (R221). -/
def errorCode : ErrorEvent → Nat
  | .cmdReserved => 4
  | .rxDrop => 5
  | .crcInvalid => 6

/-- Taking an exception on this block: `raise <Event>` sets the event's sticky bit, bumps its counter if it
has one, and does nothing else (R220, R222, R223, R224).
There is no handler to enter and nothing to return from (R231). -/
def Block.raise (e : ErrorEvent) (b : Block) : Block :=
  match e with
  | .cmdReserved => { b with cmderr := true }
  | .rxDrop => { b with droperr := true, cntDrop := satInc b.cntDrop }
  | .crcInvalid => { b with crcerr := true, cntCrcerr := satInc b.cntCrcerr }

/-- The host's "return": a STATUS write clears the sticky bits written with 1 and nothing else (R225, R231). -/
def Block.clearSticky (v : Word) (b : Block) : Block :=
  { b with
    cmderr := b.cmderr && !v.getLsbD 4,
    droperr := b.droperr && !v.getLsbD 5,
    crcerr := b.crcerr && !v.getLsbD 6 }

/-- `ASM <- []; SIL <- 0` (R139, R140). -/
def Block.discardAsm (b : Block) : Block := { b with asm := [], sil := 0 }

/-- `push(FIFO, f)`: append at the tail (R11). -/
def Block.pushFifo (f : Frame) (b : Block) : Block := { b with fifo := b.fifo ++ [f] }

/-- `if len(FIFO) > 0 then pop(FIFO)`: remove at the head (R11, R198). -/
def Block.popFifo (b : Block) : Block := { b with fifo := b.fifo.tail }

/-- The FIFO test of `close_frame`: drop the newest frame when the FIFO is full (R133, R135). -/
def Block.enqueue (p : Params) (f : Frame) (b : Block) : Block :=
  if b.rxfull p then b.raise .rxDrop else b.pushFifo f

/-- The first lines of `close_frame`: take the frame out of ASM and count the close (R133). -/
def Block.takeFrame (b : Block) : Block :=
  { b with asm := [], sil := 0, cntFrames := satInc b.cntFrames }

/-- `close_frame()` (R133, R134, R135). -/
def Block.closeFrame (p : Params) (b : Block) : Block :=
  if frameCrcOk b.asm then b.takeFrame.enqueue p b.asm
  else if b.dropbad then b.takeFrame.raise .crcInvalid
  else (b.takeFrame.raise .crcInvalid).enqueue p b.asm

/-- The byte is accepted: `ASM <- ASM ++ [b]; SIL <- 0` (R131). -/
def Block.acceptByte (x : Byte) (b : Block) : Block := { b with asm := b.asm ++ [x], sil := 0 }

/-- `on RxByte(b)` (R131). -/
def Block.rxByte (p : Params) (x : Byte) (b : Block) : Block :=
  if b.en then
    if (b.acceptByte x).asm.length == p.maxFrame then (b.acceptByte x).closeFrame p
    else b.acceptByte x
  else b

/-- `SIL <- min(SIL + 1, 0xFFFF)` (R132). -/
def Block.countSilence (b : Block) : Block := { b with sil := satInc b.sil }

/-- `on Tick` (R132): the frame closes when the silence reaches the quiet window (conflict C1). -/
def Block.tick (p : Params) (b : Block) : Block :=
  if b.assembling then
    if b.countSilence.quiet.toNat ≤ b.countSilence.sil.toNat then b.countSilence.closeFrame p
    else b.countSilence
  else b

/-- The cycle in which the line delivers one byte and nothing else happens. -/
def lineCycle (x : Byte) : Input := .cycle { rx := some x }

/-- A wire sequence begins to come in: its first byte is received now, in one `RxByte` event (R131, R66), and the
rest stay on the line, one a cycle, before everything else (the `RXF` line of R97; log 4). -/
def State.deliver (bs : Frame) (s : State) : State :=
  match bs with
  | [] => s
  | x :: rest => (s.withBlock (s.block.rxByte s.params x)).withInputs (rest.map lineCycle ++ s.inputs)

/-- The common encode step (R160): `TXBUF <- append(body); TXLEN <- 8`. -/
def Block.encodeTx (body : Frame) (b : Block) : Block :=
  { b with txbuf := TxBuf.ofFrame (crcAppend body), txlen := 8 }

/-- Does this CTRL write change EN from 1 to 0? (R139) -/
def Block.clearsEn (v : Word) (b : Block) : Bool := b.en && !v.getLsbD 0

/-- A CTRL write (R23): the four fields from bits 3 to 0; clearing EN also discards the partial frame (R139). -/
def Block.writeCtrl (v : Word) (b : Block) : Block :=
  { b with
    en := v.getLsbD 0, ieRx := v.getLsbD 1, ieErr := v.getLsbD 2, dropbad := v.getLsbD 3,
    asm := if b.clearsEn v then [] else b.asm,
    sil := if b.clearsEn v then 0 else b.sil }

/-- The stored QUIET of a CFG write: 0 becomes 1 (R24). -/
def legalQuiet (q : Half) : Half := if q == 0 then 1 else q

/-- The stored INCOUNT of a CFG write: at most 16 (R24). -/
def legalIncount (n : BitVec 5) : BitVec 5 := if n.toNat ≤ 16 then n else 16

/-- A CFG write (R24). -/
def Block.writeCfg (v : Word) (b : Block) : Block :=
  { b with quiet := legalQuiet (v.extractLsb' 0 16), incount := legalIncount (v.extractLsb' 16 5) }

end Sys2Proof.Machine
end

