-- ==== Sys2Proof/Machine/CrcUnit.lean ====
section
/-! DEFINITION. The host CRC unit family: CRC_INIT and CRC_BYTE (40_crc.md). -/

namespace Sys2Proof.Machine

/-- CRC_INIT (R117): the host CRC register takes the seed. -/
def execCrcInit (s : State) : StepOutcome :=
  .next (s.withBlock { s.block with crc := Config.crcSeed })

/-- CRC_BYTE (R118): one byte into the host CRC register. -/
def execCrcByte (data : Byte) (s : State) : StepOutcome :=
  .next (s.withBlock { s.block with crc := crcUpdate s.block.crc data })

end Sys2Proof.Machine
end

