-- ==== Sys2Proof/Machine/Encode.lean ====
section
/-! DEFINITION. The command-encoding family: NOP and the encode commands (42_codec_encode.md). -/

namespace Sys2Proof.Machine

/-- NOP (R161): no effect. -/
def execNop (s : State) : StepOutcome := .next s

/-- ENC_READ (R162). -/
def execEncRead (address : Byte) (s : State) : StepOutcome :=
  .next (s.withBlock (s.block.encodeTx (readBody address)))

/-- ENC_RELAY.ON (R163). -/
def execEncRelayOn (address relayIndex delay : Byte) (s : State) : StepOutcome :=
  .next (s.withBlock (s.block.encodeTx (relayBody address relayIndex .on delay)))

/-- ENC_RELAY.OFF (R163). -/
def execEncRelayOff (address relayIndex delay : Byte) (s : State) : StepOutcome :=
  .next (s.withBlock (s.block.encodeTx (relayBody address relayIndex .off delay)))

/-- ENC_RELAY.MOMENT (R163). -/
def execEncRelayMoment (address relayIndex delay : Byte) (s : State) : StepOutcome :=
  .next (s.withBlock (s.block.encodeTx (relayBody address relayIndex .moment delay)))

/-- ENC_RELAY with the reserved selector (R164): raises CMD_RESERVED. -/
def execEncRelayRsv (s : State) : StepOutcome :=
  .next (s.withBlock (s.block.raise .cmdReserved))

/-- ENC_ILOCK (R165): selectors 5 to 7 encode mode code 0x00. -/
def execEncIlock (address : Byte) (modeSel : BitVec 3) (s : State) : StepOutcome :=
  .next (s.withBlock (s.block.encodeTx (ilockBody address (ilockModeOfSel modeSel))))

end Sys2Proof.Machine
end

