-- ==== Sys2Proof/Machine/Receive.lean ====
section
/-! DEFINITION. The receive family: the two events RxByte and Tick and the commands RX_ABORT and RX_POP (41_delimiter.md, R198). -/

namespace Sys2Proof.Machine

/-- RxByte (R131). -/
def execRxByte (x : Byte) (s : State) : StepOutcome :=
  .next (s.withBlock (s.block.rxByte s.params x))

/-- Tick (R132). -/
def execTick (s : State) : StepOutcome := .next (s.withBlock (s.block.tick s.params))

/-- RX_POP (R198): a pop of an empty FIFO has no effect. -/
def execRxPop (s : State) : StepOutcome := .next (s.withBlock s.block.popFifo)

/-- RX_ABORT (R140): discards the frame being assembled. -/
def execRxAbort (s : State) : StepOutcome := .next (s.withBlock s.block.discardAsm)

end Sys2Proof.Machine
end

