-- ==== Sys2Proof/Machine/System.lean ====
section
/-! DEFINITION. The system family: CNT_CLEAR and the reserved command words (60_exceptions.md, R86). -/

namespace Sys2Proof.Machine

/-- CNT_CLEAR (R227): the three counters; the sticky bits stay. -/
def execCntClear (s : State) : StepOutcome :=
  .next (s.withBlock { s.block with cntFrames := 0, cntCrcerr := 0, cntDrop := 0 })

/-- RESERVED.9 (R86): raises CMD_RESERVED and does nothing else. -/
def execReserved9 (s : State) : StepOutcome :=
  .next (s.withBlock (s.block.raise .cmdReserved))

/-- RESERVED.A-B (R86): raises CMD_RESERVED; the word is not recorded (R224). -/
def execReservedAB (_low : BitVec 1) (s : State) : StepOutcome :=
  .next (s.withBlock (s.block.raise .cmdReserved))

/-- RESERVED.C-F (R86): raises CMD_RESERVED; the word is not recorded (R224). -/
def execReservedCF (_low : BitVec 2) (s : State) : StepOutcome :=
  .next (s.withBlock (s.block.raise .cmdReserved))

end Sys2Proof.Machine
end

