-- ==== Sys2Proof/Machine/Wire.lean ====
section
/-! DEFINITION. The wire family: a frame of a WIRE row reaches the block over the line, one RxByte for each of its bytes in wire order with no tick between them, the `RXF` line of R97 (R60(b), R66, R131). Its own step takes the first byte and leaves the rest on the line, a step for each (R5; log 4). A request on the line is the loopback of R96. -/

namespace Sys2Proof.Machine

/-- WRQ-READ on the line (R89). -/
def execWrqRead (address crcLow crcHigh : Byte) (s : State) : StepOutcome :=
  .next (s.deliver (readBody address ++ [crcLow, crcHigh]))

/-- WRQ-RELAY on the line (R90). -/
def execWrqRelay (address relayIndex : Byte) (mode : RelayMode) (delay crcLow crcHigh : Byte)
    (s : State) : StepOutcome :=
  .next (s.deliver (relayBody address relayIndex mode delay ++ [crcLow, crcHigh]))

/-- WRQ-ILOCK on the line (R91). -/
def execWrqIlock (address : Byte) (mode : IlockMode) (crcLow crcHigh : Byte) (s : State) : StepOutcome :=
  .next (s.deliver (ilockBody address mode ++ [crcLow, crcHigh]))

/-- WRS-READ on the line (R92). -/
def execWrsRead (address : Byte) (payload : Frame) (crcLow crcHigh : Byte) (s : State) : StepOutcome :=
  .next (s.deliver (wireFrame address 0x03 payload crcLow crcHigh))

/-- WRS-ACK on the line (R93). -/
def execWrsAck (address : Byte) (payload : Frame) (crcLow crcHigh : Byte) (s : State) : StepOutcome :=
  .next (s.deliver (wireFrame address 0x06 payload crcLow crcHigh))

/-- WRS-OTHER on the line (R94). -/
def execWrsOther (address functionCode : Byte) (payload : Frame) (crcLow crcHigh : Byte)
    (s : State) : StepOutcome :=
  .next (s.deliver (wireFrame address functionCode payload crcLow crcHigh))

end Sys2Proof.Machine
end

