-- ==== Sys2Proof/Machine/Dispatch.lean ====
section
/-! DEFINITION. One arm for every instruction. -/

namespace Sys2Proof.Machine

def exec (i : Instr) (s : State) : Host.Outcome State Fault Refusal :=
  match i with
  | .nop => Sys2Proof.Machine.execNop s
  | .encRead address => Sys2Proof.Machine.execEncRead address s
  | .encRelayOn address relayIndex delay => Sys2Proof.Machine.execEncRelayOn address relayIndex delay s
  | .encRelayOff address relayIndex delay => Sys2Proof.Machine.execEncRelayOff address relayIndex delay s
  | .encRelayMoment address relayIndex delay => Sys2Proof.Machine.execEncRelayMoment address relayIndex delay s
  | .encRelayRsv => Sys2Proof.Machine.execEncRelayRsv s
  | .encIlock address modeSel => Sys2Proof.Machine.execEncIlock address modeSel s
  | .crcInit => Sys2Proof.Machine.execCrcInit s
  | .crcByte data => Sys2Proof.Machine.execCrcByte data s
  | .rxPop => Sys2Proof.Machine.execRxPop s
  | .rxAbort => Sys2Proof.Machine.execRxAbort s
  | .cntClear => Sys2Proof.Machine.execCntClear s
  | .reserved9 => Sys2Proof.Machine.execReserved9 s
  | .reservedAB low => Sys2Proof.Machine.execReservedAB low s
  | .reservedCF low => Sys2Proof.Machine.execReservedCF low s
  | .rxByte b => Sys2Proof.Machine.execRxByte b s
  | .tick => Sys2Proof.Machine.execTick s
  | .wrqRead address crcLow crcHigh => Sys2Proof.Machine.execWrqRead address crcLow crcHigh s
  | .wrqRelay address relayIndex mode delay crcLow crcHigh => Sys2Proof.Machine.execWrqRelay address relayIndex mode delay crcLow crcHigh s
  | .wrqIlock address mode crcLow crcHigh => Sys2Proof.Machine.execWrqIlock address mode crcLow crcHigh s
  | .wrsRead address payload crcLow crcHigh => Sys2Proof.Machine.execWrsRead address payload crcLow crcHigh s
  | .wrsAck address payload crcLow crcHigh => Sys2Proof.Machine.execWrsAck address payload crcLow crcHigh s
  | .wrsOther address functionCode payload crcLow crcHigh => Sys2Proof.Machine.execWrsOther address functionCode payload crcLow crcHigh s

end Sys2Proof.Machine
end

