-- ==== Sys2Proof/WellFormed.lean ====
section
/-! DEFINITION. When an instruction is well formed. Command operands are bounded by their types; the wire rows carry the conditions of R88 to R94. -/

namespace Sys2Proof

/-- The two CRC bytes are those of the body, low byte first (R88, R89). -/
def crcBytesOf (body : Frame) (crcLow crcHigh : Byte) : Bool :=
  crcLow == Machine.lowByte (Machine.crc16 body) && crcHigh == Machine.highByte (Machine.crc16 body)

/-- A received frame fits the largest legal `MAX_FRAME`: 2 + payload + 2 bytes (R8, R88). -/
def payloadFits (payload : Frame) : Bool := payload.length + 4 ≤ Config.longestFrame

/-- Well-formedness.
A request carries its own CRC (R89, R90, R91); a response may carry any two trailing bytes, since R92 to
R94 take "any received frame"; WRS-OTHER is of neither function 0x03 nor 0x06 (R94). -/
def Instr.wf : Instr → Bool
  | .nop => true
  | .encRead _ => true
  | .encRelayOn _ _ _ => true
  | .encRelayOff _ _ _ => true
  | .encRelayMoment _ _ _ => true
  | .encRelayRsv => true
  | .encIlock _ _ => true
  | .crcInit => true
  | .crcByte _ => true
  | .rxPop => true
  | .rxAbort => true
  | .cntClear => true
  | .reserved9 => true
  | .reservedAB _ => true
  | .reservedCF _ => true
  | .rxByte _ => true
  | .tick => true
  | .wrqRead a cl ch => crcBytesOf (Machine.readBody a) cl ch
  | .wrqRelay a i m d cl ch => crcBytesOf (Machine.relayBody a i m d) cl ch
  | .wrqIlock a m cl ch => crcBytesOf (Machine.ilockBody a m) cl ch
  | .wrsRead _ p _ _ => payloadFits p
  | .wrsAck _ p _ _ => payloadFits p
  | .wrsOther _ f p _ _ => payloadFits p && f != 0x03 && f != 0x06

/-- The channel an instruction arrives on (R80, R131, R132, R96). -/
def Instr.channel : Instr → Channel
  | .nop => .command
  | .encRead _ => .command
  | .encRelayOn _ _ _ => .command
  | .encRelayOff _ _ _ => .command
  | .encRelayMoment _ _ _ => .command
  | .encRelayRsv => .command
  | .encIlock _ _ => .command
  | .crcInit => .command
  | .crcByte _ => .command
  | .rxPop => .command
  | .rxAbort => .command
  | .cntClear => .command
  | .reserved9 => .command
  | .reservedAB _ => .command
  | .reservedCF _ => .command
  | .rxByte _ => .lineByte
  | .tick => .timeBase
  | .wrqRead _ _ _ => .request
  | .wrqRelay _ _ _ _ _ _ => .request
  | .wrqIlock _ _ _ _ => .request
  | .wrsRead _ _ _ _ => .response
  | .wrsAck _ _ _ _ => .response
  | .wrsOther _ _ _ _ _ => .response

end Sys2Proof
end

