-- ==== Sys2Proof/Decode.lean ====
section
/-! DEFINITION. The decoder, total on any bytes and rejecting by name, and after it the encoder, both from the encoding rules R80 to R96. -/

namespace Sys2Proof

/-- Why bytes are no instruction of a channel.
No run of the block meets one: every command word decodes (R87), and the step decodes only what the host
port, the line and the time base deliver. -/
inductive DecodeError where
  /-- a command is exactly 32 bits (R80) -/
  | commandLength (bytes : Nat)
  /-- a received byte is one byte (R21) -/
  | byteLength (bytes : Nat)
  /-- a tick carries no data (R132) -/
  | tickLength (bytes : Nat)
  /-- a request is exactly 8 bytes (R89, R90, R91) -/
  | requestLength (bytes : Nat)
  /-- 8 bytes of none of the three request formats (R96) -/
  | notARequest
  /-- fewer than 4 bytes: a runt has no function-specific format (R88, R185) -/
  | runt (bytes : Nat)
  /-- more bytes than the largest legal `MAX_FRAME`, so never one received frame (R8, R131) -/
  | tooLong (bytes : Nat)
deriving DecidableEq, Repr

open Machine

/-- ENC_RELAY by its selector SUB[1:0] (R84). -/
def decodeRelay (w : Word) : Instr :=
  match (cmdModeSel w).toNat with
  | 0 => .encRelayOn (cmdF0 w) (cmdF1 w) (cmdF2 w)
  | 1 => .encRelayOff (cmdF0 w) (cmdF1 w) (cmdF2 w)
  | 2 => .encRelayMoment (cmdF0 w) (cmdF1 w) (cmdF2 w)
  | _ => .encRelayRsv

/-- The command decoder: the opcode map of R83, total on every 32-bit word (R87). -/
def decodeCmd (w : Word) : Instr :=
  match (cmdOp w).toNat with
  | 0x0 => .nop
  | 0x1 => .encRead (cmdF0 w)
  | 0x2 => decodeRelay w
  | 0x3 => .encIlock (cmdF0 w) (cmdModeSel3 w)
  | 0x4 => .crcInit
  | 0x5 => .crcByte (cmdF0 w)
  | 0x6 => .rxPop
  | 0x7 => .rxAbort
  | 0x8 => .cntClear
  | 0x9 => .reserved9
  | 0xA => .reservedAB (w.extractLsb' 0 1)
  | 0xB => .reservedAB (w.extractLsb' 0 1)
  | _ => .reservedCF (w.extractLsb' 0 2)

/-- A function-0x06 request: write-relay by its mode byte, set-interlock by 0xFD and 0x00 (R90, R91, R96). -/
def decodeWriteRequest (a b3 b4 b5 cl ch : Byte) : Except DecodeError Instr :=
  match relayModeOfByte b4 with
  | some m => .ok (.wrqRelay a b3 m b5 cl ch)
  | none =>
    if b3 == 0xFD && b4 == 0x00 then
      match ilockModeOfByte b5 with
      | some m => .ok (.wrqIlock a m cl ch)
      | none => .error .notARequest
    else .error .notARequest

/-- The three request formats, told apart by bytes 1, 3 and 4 (R89, R90, R91, R96). -/
def decodeRequest (bs : Frame) : Except DecodeError Instr :=
  match bs with
  | [a, f, b2, b3, b4, b5, cl, ch] =>
    if f == 0x03 && b2 == 0x00 && b3 == 0x81 && b4 == 0x00 && b5 == 0x0C then .ok (.wrqRead a cl ch)
    else if f == 0x06 && b2 == 0x00 then decodeWriteRequest a b3 b4 b5 cl ch
    else .error .notARequest
  | _ => .error (.requestLength bs.length)

/-- A received frame by its byte 1 alone (R92, R93, R94); its length is given, never inferred (R95). -/
def decodeResponse (bs : Frame) : Except DecodeError Instr :=
  match bs with
  | a :: f :: rest =>
    if rest.length < 2 then .error (.runt bs.length)
    else if Config.longestFrame < bs.length then .error (.tooLong bs.length)
    else
      let payload := rest.take (rest.length - 2)
      let cl := byteAt rest (rest.length - 2)
      let ch := byteAt rest (rest.length - 1)
      if f == 0x03 then .ok (.wrsRead a payload cl ch)
      else if f == 0x06 then .ok (.wrsAck a payload cl ch)
      else .ok (.wrsOther a f payload cl ch)
  | _ => .error (.runt bs.length)

/-- The decoder of one channel.
A command's four bytes lie in the little-endian lanes of the register bus (R65). -/
def decode (c : Channel) (bs : Frame) : Except DecodeError Instr :=
  match c with
  | .command => if bs.length = 4 then .ok (decodeCmd (runWord bs 0)) else .error (.commandLength bs.length)
  | .lineByte => if bs.length = 1 then .ok (.rxByte (byteAt bs 0)) else .error (.byteLength bs.length)
  | .timeBase => if bs.length = 0 then .ok .tick else .error (.tickLength bs.length)
  | .request => decodeRequest bs
  | .response => decodeResponse bs

/-- The channel of a wire frame in a direction (R96). -/
def directionChannel : Direction → Channel
  | .request => .request
  | .response => .response

/-- How a row of spec/opcode_table.json is laid out for the decoder: 0 bits are the tick, 8 bits a received
byte, 32 bits a command word, any other width a wire frame, the bits counted from the first byte up (log 3).
A frame that has a request's fixed bytes is read as that request, any other as a response; a row shorter
than the four bytes of R88 is filled with zero bytes. -/
def tableLayout (nbits w : Nat) : Channel × Frame :=
  if nbits = 0 then (.timeBase, [])
  else if nbits = 8 then (.lineByte, leBytes 1 w)
  else if nbits = 32 then (.command, leBytes 4 w)
  else
    let bs := leBytes (max 4 ((nbits + 7) / 8)) w
    match decodeRequest bs with
    | .ok _ => (.request, bs)
    | .error _ => (.response, bs)

/-- The instruction the decoder reads from a table row's bits; none where it rejects. -/
def decodeTableWord (nbits w : Nat) : Option Instr :=
  match decode (tableLayout nbits w).1 (tableLayout nbits w).2 with
  | .ok i => some i
  | .error _ => none

/-- The bytes of an instruction on its channel.
A command is encoded with every bit that R82 says it ignores at 0. -/
def encode : Instr → Frame
  | .nop => leBytes 4 (cmdWord 0x0 0 0 0 0).toNat
  | .encRead a => leBytes 4 (cmdWord 0x1 0 a 0 0).toNat
  | .encRelayOn a i d => leBytes 4 (cmdWord 0x2 0 a i d).toNat
  | .encRelayOff a i d => leBytes 4 (cmdWord 0x2 1 a i d).toNat
  | .encRelayMoment a i d => leBytes 4 (cmdWord 0x2 2 a i d).toNat
  | .encRelayRsv => leBytes 4 (cmdWord 0x2 3 0 0 0).toNat
  | .encIlock a sel => leBytes 4 (cmdWord 0x3 (sel.setWidth 4) a 0 0).toNat
  | .crcInit => leBytes 4 (cmdWord 0x4 0 0 0 0).toNat
  | .crcByte b => leBytes 4 (cmdWord 0x5 0 b 0 0).toNat
  | .rxPop => leBytes 4 (cmdWord 0x6 0 0 0 0).toNat
  | .rxAbort => leBytes 4 (cmdWord 0x7 0 0 0 0).toNat
  | .cntClear => leBytes 4 (cmdWord 0x8 0 0 0 0).toNat
  | .reserved9 => leBytes 4 (cmdWord 0x9 0 0 0 0).toNat
  | .reservedAB low => leBytes 4 (cmdWord (5#3 ++ low) 0 0 0 0).toNat
  | .reservedCF low => leBytes 4 (cmdWord (3#2 ++ low) 0 0 0 0).toNat
  | .rxByte b => [b]
  | .tick => []
  | .wrqRead a cl ch => readBody a ++ [cl, ch]
  | .wrqRelay a i m d cl ch => relayBody a i m d ++ [cl, ch]
  | .wrqIlock a m cl ch => ilockBody a m ++ [cl, ch]
  | .wrsRead a p cl ch => wireFrame a 0x03 p cl ch
  | .wrsAck a p cl ch => wireFrame a 0x06 p cl ch
  | .wrsOther a f p cl ch => wireFrame a f p cl ch

/-- The mnemonic of an instruction's row in spec/opcode_table.json. -/
def Instr.mnemonic : Instr → String
  | .nop => "NOP"
  | .encRead _ => "ENC_READ"
  | .encRelayOn _ _ _ => "ENC_RELAY.ON"
  | .encRelayOff _ _ _ => "ENC_RELAY.OFF"
  | .encRelayMoment _ _ _ => "ENC_RELAY.MOMENT"
  | .encRelayRsv => "ENC_RELAY.RSV"
  | .encIlock _ _ => "ENC_ILOCK"
  | .crcInit => "CRC_INIT"
  | .crcByte _ => "CRC_BYTE"
  | .rxPop => "RX_POP"
  | .rxAbort => "RX_ABORT"
  | .cntClear => "CNT_CLEAR"
  | .reserved9 => "RESERVED.9"
  | .reservedAB _ => "RESERVED.A-B"
  | .reservedCF _ => "RESERVED.C-F"
  | .rxByte _ => "RxByte"
  | .tick => "Tick"
  | .wrqRead _ _ _ => "WRQ-READ"
  | .wrqRelay _ _ _ _ _ _ => "WRQ-RELAY"
  | .wrqIlock _ _ _ _ => "WRQ-ILOCK"
  | .wrsRead _ _ _ _ => "WRS-READ"
  | .wrsAck _ _ _ _ => "WRS-ACK"
  | .wrsOther _ _ _ _ _ => "WRS-OTHER"

/-- One CMD32 row of spec/opcode_table.json. -/
structure CmdRow where
  mnemonic : String
  pattern : Word
  mask : Word
deriving DecidableEq, Repr

/-- Does a command word select this row? (R87) -/
def CmdRow.selects (r : CmdRow) (w : Word) : Bool := w &&& r.mask == r.pattern

/-- The 15 CMD32 rows as the table gives them; `decodeCmd` is written from R83 and R84 instead. -/
def cmdTable : List CmdRow :=
  [ ⟨"NOP", 0x00000000, 0x0000000F⟩,
    ⟨"ENC_READ", 0x00000001, 0x0000000F⟩,
    ⟨"ENC_RELAY.ON", 0x00000002, 0x0000003F⟩,
    ⟨"ENC_RELAY.OFF", 0x00000012, 0x0000003F⟩,
    ⟨"ENC_RELAY.MOMENT", 0x00000022, 0x0000003F⟩,
    ⟨"ENC_RELAY.RSV", 0x00000032, 0x0000003F⟩,
    ⟨"ENC_ILOCK", 0x00000003, 0x0000000F⟩,
    ⟨"CRC_INIT", 0x00000004, 0x0000000F⟩,
    ⟨"CRC_BYTE", 0x00000005, 0x0000000F⟩,
    ⟨"RX_POP", 0x00000006, 0x0000000F⟩,
    ⟨"RX_ABORT", 0x00000007, 0x0000000F⟩,
    ⟨"CNT_CLEAR", 0x00000008, 0x0000000F⟩,
    ⟨"RESERVED.9", 0x00000009, 0x0000000F⟩,
    ⟨"RESERVED.A-B", 0x0000000A, 0x0000000E⟩,
    ⟨"RESERVED.C-F", 0x0000000C, 0x0000000C⟩ ]

end Sys2Proof
end

