-- ==== Sys2Proof/Machine/Registers.lean ====
section
/-! DEFINITION. The host register space: the register map (R64), admitted accesses (R61), reads (R63, R180) and the writes that are not commands (R62, R63). -/

namespace Sys2Proof.Machine

/-- The registers of R64. -/
inductive Reg where
  | ctrl
  | cfg
  | cmd
  | status
  | crc
  | txinfo
  | tx0
  | tx1
  | rxinfo
  | rxcrc
  | rxack
  | rxread
  | rxval (k : Nat)
  | cnt0
  | cnt1
  | rxdata (w : Nat)
deriving DecidableEq, Repr

/-- The register map (R64); none at a reserved or misaligned offset. -/
def regAt (off : Nat) : Option Reg :=
  match off with
  | 0x000 => some .ctrl
  | 0x004 => some .cfg
  | 0x008 => some .cmd
  | 0x00C => some .status
  | 0x010 => some .crc
  | 0x014 => some .txinfo
  | 0x018 => some .tx0
  | 0x01C => some .tx1
  | 0x020 => some .rxinfo
  | 0x024 => some .rxcrc
  | 0x028 => some .rxack
  | 0x02C => some .rxread
  | 0x030 => some (.rxval 0)
  | 0x034 => some (.rxval 1)
  | 0x038 => some (.rxval 2)
  | 0x03C => some (.rxval 3)
  | 0x040 => some .cnt0
  | 0x044 => some .cnt1
  | _ => if 0x100 ≤ off ∧ off ≤ 0x1FC ∧ off % 4 = 0 then some (.rxdata ((off - 0x100) / 4)) else none

/-- Is an access 32 bits wide, aligned and in range? (R61) -/
def admitted (off bytes : Nat) : Bool := bytes == 4 && off % 4 == 0 && decide (off ≤ 0x1FC)

/-- A decoded register of the head entry: 0 when the FIFO is empty (R180). -/
def headWord (b : Block) (field : Frame → Word) : Word :=
  match b.fifo with
  | [] => 0
  | h :: _ => field h

/-- The read value of each register (R23 to R38). CMD reads 0 (R25). -/
def readReg (p : Params) (b : Block) : Reg → Word
  | .ctrl => ctrlWord b
  | .cfg => cfgWord b
  | .cmd => 0
  | .status => statusWord p b
  | .crc => b.crc.setWidth 32
  | .txinfo => BitVec.ofNat 32 b.txlen
  | .tx0 => runWord b.txbuf.toFrame 0
  | .tx1 => runWord b.txbuf.toFrame 4
  | .rxinfo => headWord b rxinfoWord
  | .rxcrc => headWord b rxcrcWord
  | .rxack => headWord b rxackWord
  | .rxread => headWord b (fun h => rxreadWord h b.incount)
  | .rxval k => headWord b (fun h => rxvalWord h b.incount k)
  | .cnt0 => cnt0Word b
  | .cnt1 => cnt1Word b
  | .rxdata w => headWord b (fun h => frameWindow h w)

/-- `MemRead(off, bytes)`: 0 at a reserved offset (R62) and for an access that is not admitted (R61). -/
def hostRead (p : Params) (b : Block) (off bytes : Nat) : Word :=
  if admitted off bytes then
    match regAt off with
    | some r => readReg p b r
    | none => 0
  else 0

/-- The effect of writing a register other than CMD: CTRL, CFG and STATUS have one (R63), every other write
is ignored (R62). -/
def writeReg (r : Reg) (v : Word) (b : Block) : Block :=
  match r with
  | .ctrl => b.writeCtrl v
  | .cfg => b.writeCfg v
  | .status => b.clearSticky v
  | .cmd => b
  | .crc => b
  | .txinfo => b
  | .tx0 => b
  | .tx1 => b
  | .rxinfo => b
  | .rxcrc => b
  | .rxack => b
  | .rxread => b
  | .rxval _ => b
  | .cnt0 => b
  | .cnt1 => b
  | .rxdata _ => b

/-- Is this admitted write a command, a write to CMD (R25)? -/
def isCommandWrite (off bytes : Nat) : Bool := admitted off bytes && regAt off == some .cmd

/-- `MemWrite(off, bytes, v)` to anything but CMD; a write that is not admitted changes nothing (R61). -/
def hostWrite (off bytes : Nat) (v : Word) (b : Block) : Block :=
  if admitted off bytes then
    match regAt off with
    | some r => writeReg r v b
    | none => b
  else b

end Sys2Proof.Machine
end

