-- ==== Sys2Proof/Machine/Inputs.lean ====
section
/-! DEFINITION. How the block takes its next event from the pins: the order within a cycle (R229), which events are instructions, and the events that are not (R5, R61 to R64, R250). -/

namespace Sys2Proof.Machine

/-- The event a cycle presents first: reset overrides everything; then the host access, the tick, the byte
(R229).
None where nothing of the cycle is left. -/
def cycleEvent (c : Cycle) : Option Event :=
  if c.reset then some (.reset c.host)
  else
    match c.host with
    | some a => some (.access a)
    | none => if c.tick then some .tick else c.rx.map .rxByte

/-- Put a cycle back before the later ones unless all its events are taken. -/
def requeue (c : Cycle) (q : List Input) : List Input :=
  if c.reset || c.host.isSome || c.tick || c.rx.isSome then .cycle c :: q else q

/-- What is left once a cycle's first event is taken; a reset takes the whole cycle with it (R229, R250). -/
def cycleRest (c : Cycle) (q : List Input) : List Input :=
  if c.reset then q
  else if c.host.isSome then requeue { c with host := none } q
  else if c.tick then requeue { c with tick := false } q
  else q

/-- The one event of R5 that the next step takes: a cycle's first event, or a wire sequence's first byte.
None where there is nothing to take: the block waits (R252). -/
def nextEvent (q : List Input) : Option Event :=
  match q with
  | [] => none
  | .cycle c :: _ => cycleEvent c
  | .frame _ bs :: _ => bs.head?.map .rxByte

/-- The input queue after that event. -/
def restInputs (q : List Input) : List Input :=
  match q with
  | [] => []
  | .cycle c :: q => cycleRest c q
  | .frame _ bs :: q => bs.tail.map lineCycle ++ q

/-- The instruction an event is: a write to CMD is the command its word decodes to (R25, R80), a received byte
and a tick are themselves. -/
def eventInstr (e : Event) : Option Instr :=
  match e with
  | .reset _ => none
  | .access (.read _ _) => none
  | .access (.write off bytes v) => if isCommandWrite off bytes then some (decodeCmd v) else none
  | .rxByte x => some (.rxByte x)
  | .tick => some .tick

/-- What a host access in a cycle with reset asserted reads: the reset value of its location (R250). -/
def resetRead (p : Params) (a : Option Access) : Option Word :=
  match a with
  | some (.read off bytes) => some (hostRead p Block.reset off bytes)
  | some (.write _ _ _) => none
  | none => none

/-- The events that are no instruction: reset (R250), host reads (R63) and host writes other than to CMD
(R62). -/
def applyEvent (e : Event) (s : State) : State :=
  match e with
  | .reset a => (s.withBlock Block.reset).withRdata (resetRead s.params a)
  | .access (.read off bytes) => s.withRdata (some (hostRead s.params s.block off bytes))
  | .access (.write off bytes v) => s.withBlock (hostWrite off bytes v s.block)
  | .rxByte x => s.withBlock (s.block.rxByte s.params x)
  | .tick => s.withBlock (s.block.tick s.params)

/-- The offset of a platform address; an address below `BASE` is not the block's (R64, log 9). -/
def offsetOf (p : Params) (addr : Nat) : Option Nat := if p.base ≤ addr then some (addr - p.base) else none

/-- The cycle in which the platform reads `bytes` bytes at a platform address. -/
def busRead (p : Params) (addr bytes : Nat) : Cycle :=
  { host := (offsetOf p addr).map fun off => .read off bytes }

/-- The cycle in which the platform writes `bytes` bytes at a platform address. -/
def busWrite (p : Params) (addr bytes : Nat) (v : Word) : Cycle :=
  { host := (offsetOf p addr).map fun off => .write off bytes v }

/-- The input that presents a laid-out table row to the block (log 3). -/
def layoutInput (l : Channel × Frame) : Input :=
  match l with
  | (.command, bs) => .cycle { host := some (.write 0x008 4 (runWord bs 0)) }
  | (.lineByte, bs) => .cycle { rx := some (byteAt bs 0) }
  | (.timeBase, _) => .cycle { tick := true }
  | (.request, bs) => .frame .request bs
  | (.response, bs) => .frame .response bs

end Sys2Proof.Machine
end

