-- ==== Sys2Proof/Machine/Step.lean ====
section
/-! DEFINITION. One step: the block takes exactly one event (R5), and an event that is an instruction runs it. -/

namespace Sys2Proof.Machine

/-- One event on the machine (R5). The read-data output of the step before is gone. -/
def stepEvent (e : Event) (s : State) : Host.Outcome State Fault Refusal :=
  match eventInstr e with
  | some i => exec i (s.withRdata none)
  | none => .next (applyEvent e (s.withRdata none))

/-- A step that takes the next event of a cycle, if one is left (R229). -/
def stepCycle (c : Cycle) (s : State) : Host.Outcome State Fault Refusal :=
  match cycleEvent c with
  | some e => stepEvent e s
  | none => .next (s.withRdata none)

/-- A step at which a wire sequence begins to come in: the instruction its bytes decode to in its direction (R96)
takes the first byte; bytes of no row's format (R88) come in byte by byte all the same. -/
def stepFrame (d : Direction) (bs : Frame) (s : State) : Host.Outcome State Fault Refusal :=
  match decode (directionChannel d) bs with
  | .ok i => exec i (s.withRdata none)
  | .error _ => .next ((s.withRdata none).deliver bs)

/-- One step: the next input's first event, or nothing where there is none (R5, R252). -/
def step (s : State) : Host.Outcome State Fault Refusal :=
  match s.inputs with
  | [] => .next (s.withRdata none)
  | .cycle c :: q => stepCycle c (s.withInputs (cycleRest c q))
  | .frame d bs :: q => stepFrame d bs (s.withInputs q)

/-- The machine about to take the instruction that a table row's bits stand for: it is put before all other
inputs, on the channel it arrives on (log 2, log 3). -/
def State.withFetchWord (s : State) (nbits w : Nat) : State :=
  s.withInputs (layoutInput (tableLayout nbits w) :: s.inputs)

end Sys2Proof.Machine
end

