-- ==== Sys2Proof/Machine/Script.lean ====
section
/-! DEFINITION. The script notation of R97: each line as the inputs it stands for, one event a cycle. -/

namespace Sys2Proof.Machine.Script

/-- `WR off, v` -/
def wr (off : Nat) (v : Word) : List Input := [.cycle { host := some (.write off 4 v) }]
/-- `RD off` -/
def rd (off : Nat) : List Input := [.cycle { host := some (.read off 4) }]
/-- `RXB b` -/
def rxb (x : Byte) : List Input := [.cycle { rx := some x }]
/-- `TICK` -/
def tick : List Input := [.cycle { tick := true }]
/-- `RST` -/
def rst : List Input := [.cycle { reset := true }]
/-- `NOP` -/
def nop : List Input := wr 0x008 0x00000000
/-- `ENC_READ a` -/
def encRead (a : Byte) : List Input := wr 0x008 (cmdWord 0x1 0 a 0 0)
/-- `ENC_RELAY.ON a, i, d` -/
def encRelayOn (a i d : Byte) : List Input := wr 0x008 (cmdWord 0x2 0 a i d)
/-- `ENC_RELAY.OFF a, i, d` -/
def encRelayOff (a i d : Byte) : List Input := wr 0x008 (cmdWord 0x2 1 a i d)
/-- `ENC_RELAY.MOMENT a, i, d` -/
def encRelayMoment (a i d : Byte) : List Input := wr 0x008 (cmdWord 0x2 2 a i d)
/-- `ENC_ILOCK a, c` -/
def encIlock (a : Byte) (c : BitVec 3) : List Input := wr 0x008 (cmdWord 0x3 (c.setWidth 4) a 0 0)
/-- `CRC_INIT` -/
def crcInit : List Input := wr 0x008 0x00000004
/-- `CRC_BYTE b` -/
def crcByte (x : Byte) : List Input := wr 0x008 (cmdWord 0x5 0 x 0 0)
/-- `RX_POP` -/
def rxPop : List Input := wr 0x008 0x00000006
/-- `RX_ABORT` -/
def rxAbort : List Input := wr 0x008 0x00000007
/-- `CNT_CLEAR` -/
def cntClear : List Input := wr 0x008 0x00000008
/-- `CRC_FEED b0, ..., bk` -/
def crcFeed (bs : Frame) : List Input := bs.flatMap crcByte
/-- `RXF b0, ..., bk`: bytes back to back -/
def rxf (bs : Frame) : List Input := bs.flatMap rxb
/-- `GAP n` -/
def gap (n : Nat) : List Input := List.replicate n (.cycle { tick := true })
/-- `W1C m` -/
def w1c (m : Word) : List Input := wr 0x00C m

end Sys2Proof.Machine.Script
end

