-- ==== Sys2Proof/Machine/Time.lean ====
section
/-! DEFINITION. The real-time reading of ticks (R138, R262): ticks arrive every `TICK_PERIOD` at an arbitrary phase. Times are whole numbers of the unit `TICK_PERIOD` is given in (log 7). -/

namespace Sys2Proof.Machine

/-- How many of the ticks at `phase`, `phase + period`, `phase + 2·period`, … have come by time `t`. -/
def ticksBy (period phase t : Nat) : Nat := if t < phase then 0 else (t - phase) / period + 1

/-- The ticks processed after a byte delivered at `t1` and before one delivered at `t2`: a tick in the cycle
of a byte is processed before it (R229), so these are the ticks in the interval from `t1`, excluded, to `t2`,
included. -/
def ticksBetween (period phase t1 t2 : Nat) : Nat := ticksBy period phase t2 - ticksBy period phase t1

end Sys2Proof.Machine
end

