-- ==== Sys2Proof/Safety.lean ====
section
/-! DEFINITION. What a claim may call a sound state and a sound run: the invariants of R39, runs over events, and the host's service discipline of R264. -/

namespace Sys2Proof.Machine

/-- The invariants (a) to (g) of R39, between any two events. -/
abbrev Block.Inv (p : Params) (b : Block) : Prop :=
  b.asm.length + 1 ≤ p.maxFrame ∧
  (b.asm.length = 0 → b.sil = 0) ∧
  b.fifo.length ≤ p.rxqDepth ∧
  (∀ f ∈ b.fifo, 1 ≤ f.length ∧ f.length ≤ p.maxFrame) ∧
  (1 ≤ b.quiet.toNat ∧ b.incount.toNat ≤ 16) ∧
  (b.txlen = 0 ∨ b.txlen = 8) ∧
  (b.txlen = 0 → b.txbuf = TxBuf.zero)

/-- The parameters are legal (R8) and the block meets R39. -/
abbrev State.Inv (s : State) : Prop := s.params.Legal ∧ s.block.Inv s.params

/-- A run over a list of events, in order, stopping at the first fault or refusal. -/
def runEvents : List Event → State → StepOutcome
  | [], s => .next s
  | e :: es, s =>
    match stepEvent e s with
    | .next t => runEvents es t
    | .fault r => .fault r
    | .refused r => .refused r

/-- A run over a list of instructions, in order. -/
def runInstrs : List Instr → State → StepOutcome
  | [], s => .next s
  | i :: is, s =>
    match exec i s with
    | .next t => runInstrs is t
    | .fault r => .fault r
    | .refused r => .refused r

/-- The events of a cycle without reset, in the order of R229: the host access, the tick, the byte. -/
def cycleEvents (c : Cycle) : List Event :=
  (c.host.toList.map .access) ++ (if c.tick then [.tick] else []) ++ (c.rx.toList.map .rxByte)

/-- The number of ticks among some events. -/
def tickCount (es : List Event) : Nat := es.count .tick

/-- May this event stand between the two bytes of the gap rule?
R136 excludes a capacity close and another byte, RX_ABORT, a write that clears EN, a write of CFG.QUIET and
reset; every other event may come between. -/
def gapEvent (e : Event) : Bool :=
  match e with
  | .reset _ => false
  | .access (.read _ _) => true
  | .access (.write off bytes v) =>
    !(admitted off bytes &&
      ((regAt off == some .ctrl && !v.getLsbD 0) || regAt off == some .cfg
        || (regAt off == some .cmd && decodeCmd v == .rxAbort)))
  | .rxByte _ => false
  | .tick => true

/-- The frame that an event closes, if it closes one: at the tick that reaches the quiet window (R132) or at the
byte that fills MAX_FRAME (R131). -/
def closingFrame (p : Params) (b : Block) (e : Event) : Option Frame :=
  match e with
  | .tick => if b.assembling && decide (b.quiet.toNat ≤ (satInc b.sil).toNat) then some b.asm else none
  | .rxByte x => if b.en && b.asm.length + 1 == p.maxFrame then some (b.asm ++ [x]) else none
  | .reset _ => none
  | .access _ => none

/-- Does this event close a frame that reaches the FIFO test of `close_frame`?
A frame filtered by DROPBAD never does (R264). -/
def reachesFifo (p : Params) (b : Block) (e : Event) : Bool :=
  match closingFrame p b e with
  | some f => frameCrcOk f || !b.dropbad
  | none => false

/-- Does this event pop an entry? (R198) -/
def popsEntry (b : Block) (e : Event) : Bool := eventInstr e == some .rxPop && b.rxne

/-- The state after one event; the step answers a next state for every event. -/
def afterEvent (e : Event) (s : State) : State :=
  match stepEvent e s with
  | .next t => t
  | .fault _ => s
  | .refused _ => s

/-- The service discipline of R264, with `closed` frames that have reached the FIFO test and `popped` entries
popped so far: before frame `m` closes, the host has popped the frames up to `m - RXQ_DEPTH`. -/
def Serviced : List Event → State → Nat → Nat → Prop
  | [], _, _, _ => True
  | e :: es, s, closed, popped =>
    (reachesFifo s.params s.block e = true → closed + 1 ≤ popped + s.params.rxqDepth) ∧
    Serviced es (afterEvent e s)
      (if reachesFifo s.params s.block e then closed + 1 else closed)
      (if popsEntry s.block e then popped + 1 else popped)

end Sys2Proof.Machine
end

