-- ==== Sys2Proof/Certificates/Slice0/Obligations.lean ====
section
/-! DEFINITION. The statements for the provers. Each docstring names the rule of the spec it formalises. -/

open Sys2Proof Sys2Proof.Machine

/-! ## Encodings -/

/-- Words written out from R81 to R85 and the script lines of R97 decode to the commands they stand for. -/
def Obligations.CommandWordsDecodeToTheirCommands : Prop :=
  decodeCmd 0xFFFFFFF0 = .nop ∧
  decodeCmd 0x00000101 = .encRead 0x01 ∧
  decodeCmd 0x0A010122 = .encRelayMoment 0x01 0x01 0x0A ∧
  decodeCmd 0x00030132 = .encRelayRsv ∧
  decodeCmd 0x000001B3 = .encIlock 0x01 3 ∧
  decodeCmd 0xFFFFFF05 = .crcByte 0xFF ∧
  decodeCmd 0x00000006 = .rxPop ∧
  decodeCmd 0x0000000B = .reservedAB 1 ∧
  decode .request [0x01, 0x06, 0x00, 0xFD, 0x00, 0x03, 0x58, 0x3B] = .ok (.wrqIlock 0x01 .momentary 0x58 0x3B) ∧
  decode .response [0x01, 0x83, 0x02, 0xC0, 0xF1] = .ok (.wrsOther 0x01 0x83 [0x02] 0xC0 0xF1)

/-- R87: every word selects exactly one CMD32 row of the opcode table, and the decoder, written from R83 and
R84, reads that row's command. -/
def Obligations.EveryWordSelectsExactlyOneRow : Prop :=
  ∀ w : Word, (cmdTable.filter fun r => r.selects w).map CmdRow.mnemonic = [(decodeCmd w).mnemonic]

/-- R82: words that agree on OP and on the operand bits R82 names for that OP decode alike; every other bit is
ignored, and with the reserved relay selector F0, F1 and F2 as well (R164). -/
def Obligations.UnnamedCommandBitsAreIgnored : Prop :=
  ∀ w w' : Word, cmdOp w = cmdOp w' →
    (cmdOp w = 0x1 ∨ cmdOp w = 0x3 ∨ cmdOp w = 0x5 → cmdF0 w = cmdF0 w') →
    (cmdOp w = 0x2 → cmdModeSel w = cmdModeSel w') →
    (cmdOp w = 0x2 → cmdModeSel w ≠ 3 →
      cmdF0 w = cmdF0 w' ∧ cmdF1 w = cmdF1 w' ∧ cmdF2 w = cmdF2 w') →
    (cmdOp w = 0x3 → cmdModeSel3 w = cmdModeSel3 w') →
    decodeCmd w = decodeCmd w'

/-- Decode and encode agree on every well-formed instruction, every operand at every value its encoding
admits (R81 to R85, R88 to R94). -/
def Obligations.DecodeOfEncodeIsTheInstruction : Prop :=
  ∀ i : Instr, i.wf = true → decode i.channel (encode i) = .ok i

/-- The other direction for wire frames: an instruction decoded from a frame encodes to that very frame
(R88 to R94). -/
def Obligations.DecodedWireFramesKeepEveryByte : Prop :=
  ∀ (d : Direction) (bs : Frame) (i : Instr),
    decode (directionChannel d) bs = .ok i → encode i = bs ∧ i.channel = directionChannel d

/-! ## Events and steps -/

/-- A step runs the instruction its event decodes to: a CMD write runs the command of its word, a tick and a
received byte run themselves, a wire frame runs what it decodes to in its direction.
Around it the step only takes the event out of the input queue and clears the read-data output (R5, R25).
The queue, the read-data output, and that a wire frame is an instruction of the line, are the model's choices
(log 2, log 5, log 4). -/
def Obligations.StepRunsTheDecodedInstruction : Prop :=
  (∀ (s : State) (c : Cycle) (q : List Input) (v : Word) (i : Instr),
    s.inputs = .cycle c :: q → c.reset = false → c.host = some (.write 0x008 4 v) →
    decode .command (leBytes 4 v.toNat) = .ok i →
    step s = exec i { s with inputs := requeue { c with host := none } q, rdata := none }) ∧
  (∀ (s : State) (c : Cycle) (q : List Input),
    s.inputs = .cycle c :: q → c.reset = false → c.host = none → c.tick = true →
    step s = exec .tick { s with inputs := requeue { c with tick := false } q, rdata := none }) ∧
  (∀ (s : State) (c : Cycle) (q : List Input) (x : Byte),
    s.inputs = .cycle c :: q → c.reset = false → c.host = none → c.tick = false → c.rx = some x →
    step s = exec (.rxByte x) { s with inputs := q, rdata := none }) ∧
  (∀ (s : State) (d : Direction) (bs : Frame) (q : List Input) (i : Instr),
    s.inputs = .frame d bs :: q → decode (directionChannel d) bs = .ok i →
    step s = exec i { s with inputs := q, rdata := none })

/-- R229: a cycle with reset asserted is the reset alone, whatever else it holds; any other cycle is its host
access, then its tick, then its byte, and running it takes one step for each.
That each event of a cycle takes a step of its own is the model's choice (log 2, log 13). -/
def Obligations.CycleEventsRunInTheFixedOrder : Prop :=
  (∀ (s : State) (c : Cycle) (q : List Input), s.inputs = .cycle c :: q → c.reset = true →
    step s = .next { s with
      block := Block.reset, inputs := q, rdata := resetRead s.params c.host }) ∧
  (∀ (s : State) (c : Cycle) (q : List Input), s.inputs = .cycle c :: q → c.reset = false →
    cycleEvents c ≠ [] →
    Host.Core.run Sys2Proof.core (cycleEvents c).length s =
      runEvents (cycleEvents c) { s with inputs := q })

/-- R7: the block never halts and never stops by itself: every step, and every instruction, answers a next
state. -/
def Obligations.TheBlockNeverStops : Prop :=
  (∀ s : State, ∃ t, step s = .next t) ∧ (∀ (i : Instr) (s : State), ∃ t, exec i s = .next t)

/-- R5: a step takes exactly one event, or none where there is none to take.
Where there is one (a cycle's first, or the first byte of a wire sequence), the step is that event alone, and the
rest of the queue stays for later steps; without one, in an empty queue or an idle cycle, a step changes nothing
of the block (R252).
No step at all changes the parameters of the step relation (R22).
That a step is taken without an event, that the events wait in a queue, and that the parameters stand in the state,
is the model's choice (log 2, log 1). -/
def Obligations.NothingHappensWithoutAnEvent : Prop :=
  (∀ s : State, s.inputs = [] → step s = .next { s with rdata := none }) ∧
  (∀ (s : State) (q : List Input), s.inputs = .cycle {} :: q →
    step s = .next { s with inputs := q, rdata := none }) ∧
  (∀ (s : State) (e : Event), nextEvent s.inputs = some e →
    step s = stepEvent e { s with inputs := restInputs s.inputs }) ∧
  (∀ s : State, nextEvent s.inputs = none →
    step s = .next { s with inputs := restInputs s.inputs, rdata := none }) ∧
  (∀ (s : State) (d : Direction) (x : Byte) (bs : Frame) (q : List Input),
    s.inputs = .frame d (x :: bs) :: q →
    nextEvent s.inputs = some (.rxByte x) ∧
      restInputs s.inputs = bs.map (fun y => .cycle { rx := some y }) ++ q) ∧
  (∀ s t : State, step s = .next t → t.params = s.params)

/-! ## Reset and invariants -/

/-- R250: reset puts every element at its reset value, overrides the cycle's other events, and answers a host
read of that cycle with the reset value; `irq` is 0 and every register reads its reset value. -/
def Obligations.ResetRestoresEveryElement : Prop :=
  ∀ (s : State) (c : Cycle) (q : List Input),
    s.params.Legal → s.inputs = .cycle c :: q → c.reset = true →
    ∃ t, step s = .next t ∧ t.params = s.params ∧ t.inputs = q ∧
      (t.block.en = false ∧ t.block.ieRx = false ∧ t.block.ieErr = false ∧ t.block.dropbad = false) ∧
      (t.block.quiet = 30 ∧ t.block.incount = 12) ∧
      t.block.crc = 0xFFFF ∧
      (t.block.txbuf.toFrame = [0, 0, 0, 0, 0, 0, 0, 0] ∧ t.block.txlen = 0) ∧
      (t.block.asm = [] ∧ t.block.sil = 0) ∧
      t.block.fifo = [] ∧
      (t.block.cmderr = false ∧ t.block.droperr = false ∧ t.block.crcerr = false) ∧
      (t.block.cntFrames = 0 ∧ t.block.cntCrcerr = 0 ∧ t.block.cntDrop = 0) ∧
      t.block.irq = false ∧
      (∀ off, hostRead t.params t.block off 4 =
        if off = 0x004 then 0x000C001E else if off = 0x010 then 0x0000FFFF else 0) ∧
      (∀ off, c.host = some (.read off 4) → t.rdata = some (hostRead t.params t.block off 4))

/-- The machine after reset meets R39 for every legal choice of the parameters, `State.reset` among them. -/
def Obligations.ResetStateMeetsTheStateInvariants : Prop :=
  (∀ p : Params, p.Legal → (State.resetWith p).Inv) ∧ State.reset.Inv

/-- R39: the invariants (a) to (g) hold between any two events: every step from a state that meets them gives
a state that meets them. -/
def Obligations.StepsKeepTheStateInvariants : Prop :=
  ∀ s t : State, s.Inv → step s = .next t → t.Inv

/-- Nothing is assembled while EN is 0: a state in which this holds steps to one in which it holds, so every
tick then finds ASM empty (R131, R139). -/
def Obligations.NothingIsAssembledWhileDisabled : Prop :=
  ∀ s t : State, (s.block.en = false → s.block.asm = [] ∧ s.block.sil = 0) → step s = .next t →
    (t.block.en = false → t.block.asm = [] ∧ t.block.sil = 0)

/-- R238: with EN, IE_RX and IE_ERR 0 the block is quiescent: bytes and ticks change nothing and `irq` is low.
The premise that ASM is empty is the invariant of NothingIsAssembledWhileDisabled. -/
def Obligations.DisabledBlockIsQuiescent : Prop :=
  ∀ s : State, s.block.en = false → s.block.ieRx = false → s.block.ieErr = false → s.block.asm = [] →
    (∀ x, exec (.rxByte x) s = .next s) ∧ exec .tick s = .next s ∧ s.block.irq = false

/-! ## Host registers -/

/-- R63: a read changes nothing and answers the register's value, two reads with no event between answer the
same, and a write changes the block only at CTRL, CFG, CMD, or with a 1 in STATUS bits 4 to 6. -/
def Obligations.HostReadsHaveNoSideEffects : Prop :=
  (∀ (s : State) (off n : Nat),
    stepEvent (.access (.read off n)) s =
      .next { s with rdata := some (hostRead s.params s.block off n) }) ∧
  (∀ (s t u : State) (off n : Nat), stepEvent (.access (.read off n)) s = .next t →
    stepEvent (.access (.read off n)) t = .next u → u.rdata = t.rdata) ∧
  (∀ (s : State) (off n : Nat) (v : Word), off ≠ 0x000 → off ≠ 0x004 → off ≠ 0x008 →
    (off = 0x00C → v.extractLsb' 4 3 = 0) →
    stepEvent (.access (.write off n v)) s = .next { s with rdata := none })

/-- R61: an access that is not 32 bits wide, aligned and at most at 0x1FC reads 0 and changes nothing. -/
def Obligations.AccessesNotAdmittedDoNothing : Prop :=
  ∀ (s : State) (off n : Nat) (v : Word), ¬ (n = 4 ∧ off % 4 = 0 ∧ off ≤ 0x1FC) →
    stepEvent (.access (.read off n)) s = .next { s with rdata := some 0 } ∧
    stepEvent (.access (.write off n v)) s = .next { s with rdata := none }

/-- R62: reserved offsets and CMD read 0; writes to reserved offsets and to RO registers are ignored; reserved
bits of CTRL, CFG, STATUS and RXINFO read 0 and written reserved bits are ignored.
The premise is the invariant of R39, which bounds the counts in STATUS. -/
def Obligations.ReservedLocationsReadZeroAndIgnoreWrites : Prop :=
  ∀ s : State, s.Inv →
    (∀ off n, 0x048 ≤ off → off ≤ 0x0FC → hostRead s.params s.block off n = 0) ∧
    (∀ off n v, 0x010 ≤ off → stepEvent (.access (.write off n v)) s = .next { s with rdata := none }) ∧
    (∀ n, hostRead s.params s.block 0x008 n = 0) ∧
    ((hostRead s.params s.block 0x000 4).extractLsb' 4 28 = 0 ∧
      (hostRead s.params s.block 0x004 4).extractLsb' 21 11 = 0 ∧
      (hostRead s.params s.block 0x00C 4).getLsbD 3 = false ∧
      (hostRead s.params s.block 0x00C 4).getLsbD 7 = false ∧
      (hostRead s.params s.block 0x00C 4).extractLsb' 25 7 = 0 ∧
      (hostRead s.params s.block 0x020 4).getLsbD 15 = false) ∧
    (∀ v : Word,
      stepEvent (.access (.write 0x000 4 v)) s = stepEvent (.access (.write 0x000 4 (v &&& 0xF))) s ∧
      stepEvent (.access (.write 0x004 4 v)) s =
        stepEvent (.access (.write 0x004 4 (v &&& 0x1FFFFF))) s ∧
      stepEvent (.access (.write 0x00C 4 v)) s = stepEvent (.access (.write 0x00C 4 (v &&& 0x70))) s)

/-- R23: a CTRL write stores bits 3 to 0 and nothing else, and discards the partial frame exactly when
it takes EN from 1 to 0 (R139); CTRL reads the four bits back under zeros, and 0 after reset. -/
def Obligations.CtrlWriteStoresFourBits : Prop :=
  (∀ p : Params, hostRead p Block.reset 0x000 4 = 0) ∧
  ∀ (s : State) (v : Word),
    ∃ t, stepEvent (.access (.write 0x000 4 v)) s = .next t ∧
      t = { s with
        rdata := none,
        block := { s.block with
          en := v.getLsbD 0, ieRx := v.getLsbD 1, ieErr := v.getLsbD 2, dropbad := v.getLsbD 3,
          asm := if s.block.en = true ∧ v.getLsbD 0 = false then [] else s.block.asm,
          sil := if s.block.en = true ∧ v.getLsbD 0 = false then 0 else s.block.sil } } ∧
      hostRead t.params t.block 0x000 4 = v &&& 0xF

/-- R24: a CFG write stores legal values, QUIET 0 as 1 and INCOUNT above 16 as 16, and nothing else; CFG reads
them back, and reads 0x000C001E after reset. -/
def Obligations.CfgWriteStoresLegalValues : Prop :=
  (∀ (s : State) (v : Word),
    ∃ t, stepEvent (.access (.write 0x004 4 v)) s = .next t ∧
      t = { s with
        rdata := none,
        block := { s.block with quiet := t.block.quiet, incount := t.block.incount } } ∧
      t.block.quiet.toNat = (if v.toNat % 65536 = 0 then 1 else v.toNat % 65536) ∧
      t.block.incount.toNat = min (v.toNat / 65536 % 32) 16 ∧
      (hostRead t.params t.block 0x004 4).toNat =
        t.block.incount.toNat * 65536 + t.block.quiet.toNat) ∧
  (∀ p : Params, hostRead p Block.reset 0x004 4 = 0x000C001E)

/-- R26: each field of STATUS, bit by bit, and its value after reset. -/
def Obligations.StatusShowsItsFields : Prop :=
  (∀ s : State, s.Inv →
    let w := hostRead s.params s.block 0x00C 4
    (w.getLsbD 0 = true ↔ s.block.fifo ≠ []) ∧
    (w.getLsbD 1 = true ↔ s.block.fifo.length = s.params.rxqDepth) ∧
    (w.getLsbD 2 = true ↔ s.block.asm ≠ []) ∧
    w.getLsbD 3 = false ∧
    w.getLsbD 4 = s.block.cmderr ∧ w.getLsbD 5 = s.block.droperr ∧ w.getLsbD 6 = s.block.crcerr ∧
    w.getLsbD 7 = false ∧
    (w.extractLsb' 8 8).toNat = s.block.fifo.length ∧
    (w.extractLsb' 16 9).toNat = s.block.asm.length ∧
    w.extractLsb' 25 7 = 0) ∧
  (∀ p : Params, p.Legal → hostRead p Block.reset 0x00C 4 = 0)

/-- R225: a STATUS write clears exactly the sticky bits written with 1; a 0 leaves a bit, every other bit is
ignored, and the counters stay. -/
def Obligations.StatusWriteClearsStickyBits : Prop :=
  ∀ (s : State) (v : Word),
    stepEvent (.access (.write 0x00C 4 v)) s = .next { s with
      rdata := none,
      block := { s.block with
        cmderr := if v.getLsbD 4 = true then false else s.block.cmderr,
        droperr := if v.getLsbD 5 = true then false else s.block.droperr,
        crcerr := if v.getLsbD 6 = true then false else s.block.crcerr } }

/-- R28, R29 and R30: TXINFO shows `TXLEN`, 0 or 8, TX0 and TX1 show `TXBUF` with the byte of lowest index in the
lowest lane, the three read 0 after reset, and a write to one is ignored.
The premise for TXINFO is the invariant of R39. -/
def Obligations.TransmitBufferReadsInByteLanes : Prop :=
  (∀ s : State, s.Inv → (hostRead s.params s.block 0x014 4).toNat = s.block.txlen ∧
    (s.block.txlen = 0 ∨ s.block.txlen = 8)) ∧
  (∀ (p : Params) (b : Block) (j : Nat), j < 4 →
    (hostRead p b 0x018 4).extractLsb' (8 * j) 8 = b.txbuf.toFrame.getD j 0 ∧
    (hostRead p b 0x01C 4).extractLsb' (8 * j) 8 = b.txbuf.toFrame.getD (4 + j) 0) ∧
  (∀ (p : Params) (off : Nat), off = 0x014 ∨ off = 0x018 ∨ off = 0x01C → hostRead p Block.reset off 4 = 0) ∧
  (∀ (s : State) (off n : Nat) (v : Word), off = 0x014 ∨ off = 0x018 ∨ off = 0x01C →
    stepEvent (.access (.write off n v)) s = .next { s with rdata := none })

/-- R36, R37 and R227: CNT0 and CNT1 show the three counters, read 0 after reset and ignore writes; a word with
OP 0x8 is CNT_CLEAR, which clears the three and nothing else, so the sticky bits stay, and a frame that closes
in the cycle of the clear is counted after it. -/
def Obligations.CounterRegistersShowAndClearTheCounters : Prop :=
  (∀ w : Word, cmdOp w = 0x8 → decodeCmd w = .cntClear) ∧
  (∀ p : Params, hostRead p Block.reset 0x040 4 = 0 ∧ hostRead p Block.reset 0x044 4 = 0) ∧
  (∀ (p : Params) (b : Block),
    (hostRead p b 0x040 4).toNat = b.cntCrcerr.toNat * 65536 + b.cntFrames.toNat ∧
    (hostRead p b 0x044 4).toNat = b.cntDrop.toNat) ∧
  (∀ (s : State) (off n : Nat) (v : Word), off = 0x040 ∨ off = 0x044 →
    stepEvent (.access (.write off n v)) s = .next { s with rdata := none }) ∧
  (∀ s : State, exec .cntClear s = .next { s with
    block := { s.block with cntFrames := 0, cntCrcerr := 0, cntDrop := 0 } }) ∧
  (∀ (s : State) (w : Word) (q : List Input), cmdOp w = 0x8 →
    s.inputs = .cycle { host := some (.write 0x008 4 w), tick := true } :: q →
    ∃ t u, step s = .next t ∧ step t = .next u ∧
      u.block = ({ s.block with cntFrames := 0, cntCrcerr := 0, cntDrop := 0 } : Block).tick s.params)

/-- R40: the silence counter, the bytes of ASM and the entries behind the head are hidden, only their counts
show, and nothing else is hidden: two blocks meeting R39 read alike everywhere exactly when they agree on
everything but those. -/
def Obligations.OnlyTheListedStateIsHidden : Prop :=
  ∀ (p : Params) (b b' : Block), p.Legal → b.Inv p → b'.Inv p →
    ((∀ off n, hostRead p b off n = hostRead p b' off n) ↔
      (b.asm.length = b'.asm.length ∧ b.fifo.length = b'.fifo.length ∧ b.fifo.head? = b'.fifo.head? ∧
        b = { b' with asm := b.asm, sil := b.sil, fifo := b.fifo }))

/-! ## The CRC engine -/

/-- The worked values of R111 and R112: the update of 0xFFFF by 0x01, the empty sequence and the read-inputs
request. -/
def Obligations.CrcWorkedValues : Prop :=
  crcUpdate 0xFFFF 0x01 = 0x807E ∧ crc16 [] = 0xFFFF ∧ crc16 [0x01, 0x03, 0x00, 0x81, 0x00, 0x0C] = 0xE715 ∧
  crcAppend [0x01, 0x03, 0x00, 0x81, 0x00, 0x0C] = [0x01, 0x03, 0x00, 0x81, 0x00, 0x0C, 0x15, 0xE7]

/-- R115: the CRC of a sequence with its CRC appended is 0, and `verify` is the test that the CRC of the whole
sequence is 0. -/
def Obligations.CrcResidueIsZero : Prop :=
  (∀ s : Frame, crc16 (crcAppend s) = 0) ∧
  (∀ s : Frame, 2 ≤ s.length → crcVerify s = (crc16 s == 0))

/-- R116: an error inside one single byte of `append(s)` is always detected. -/
def Obligations.SingleByteErrorsAreDetected : Prop :=
  ∀ (s : Frame) (k : Nat) (e : Byte), k < (crcAppend s).length → e ≠ 0 →
    crcVerify ((crcAppend s).modify k (fun x => x ^^^ e)) = false

/-- R117 and R118: words with OP 0x4 and 0x5 are CRC_INIT and CRC_BYTE of the data F0; CRC_INIT puts the seed in
the CRC register, once or twice alike, CRC_BYTE feeds one byte into it, and neither changes anything else;
CRC_INIT and then a byte sequence leave `crc16` of it, from which `append` follows, and for 4 bytes or more the
register is 0 exactly when `verify` holds. -/
def Obligations.HostRunsTheCrcOnItsBytes : Prop :=
  (∀ w : Word, (cmdOp w = 0x4 → decodeCmd w = .crcInit) ∧ (cmdOp w = 0x5 → decodeCmd w = .crcByte (cmdF0 w))) ∧
  (∀ s : State, exec .crcInit s = .next { s with block := { s.block with crc := 0xFFFF } } ∧
    runInstrs [.crcInit, .crcInit] s = exec .crcInit s) ∧
  (∀ (x : Byte) (s : State),
    exec (.crcByte x) s = .next { s with block := { s.block with crc := crcUpdate s.block.crc x } }) ∧
  (∀ (bs : Frame) (s : State),
    ∃ t, runInstrs (.crcInit :: bs.map .crcByte) s = .next t ∧
      t = { s with block := { s.block with crc := crc16 bs } } ∧
      crcAppend bs = bs ++ [t.block.crc.extractLsb' 0 8, t.block.crc.extractLsb' 8 8] ∧
      (4 ≤ bs.length → (t.block.crc = 0 ↔ crcVerify bs = true)))

/-- R27: the CRC register reads zero-extended, 0x0000FFFF after reset, a write to it is ignored, and it changes
only by CRC_INIT, CRC_BYTE and reset. -/
def Obligations.OnlyCrcCommandsAndResetChangeTheCrc : Prop :=
  (∀ (p : Params) (b : Block), (hostRead p b 0x010 4).toNat = b.crc.toNat) ∧
  (∀ p : Params, hostRead p Block.reset 0x010 4 = 0x0000FFFF) ∧
  (∀ (s : State) (n : Nat) (v : Word),
    stepEvent (.access (.write 0x010 n v)) s = .next { s with rdata := none }) ∧
  (∀ s t : State, step s = .next t → t.block.crc ≠ s.block.crc →
    (∃ a, nextEvent s.inputs = some (.reset a)) ∨ (nextEvent s.inputs).bind eventInstr = some .crcInit ∨
      ∃ x, (nextEvent s.inputs).bind eventInstr = some (.crcByte x))

/-- R119: no instruction but the two CRC commands reads or writes the CRC register: whatever it held, the
instruction does the same and leaves it. -/
def Obligations.EncoderAndDecoderNeverUseTheCrcRegister : Prop :=
  ∀ (i : Instr) (s t : State) (c : Half), i ≠ .crcInit → (∀ x, i ≠ .crcByte x) → exec i s = .next t →
    t.block.crc = s.block.crc ∧
    exec i { s with block := { s.block with crc := c } } =
      .next { t with block := { t.block with crc := c } }

/-! ## Command encoding -/

/-- R161: a word with OP 0x0 is NOP, whatever its other bits, and NOP has no effect. -/
def Obligations.NopHasNoEffect : Prop :=
  (∀ w : Word, cmdOp w = 0x0 → decodeCmd w = .nop) ∧ ∀ s : State, exec .nop s = .next s

/-- R162: a word with OP 0x1 is ENC_READ of the address F0, and ENC_READ leaves the read-inputs request of the
given address in TXBUF, with its CRC, and length 8, and changes nothing else. -/
def Obligations.EncReadFillsTheTransmitBuffer : Prop :=
  (∀ w : Word, cmdOp w = 0x1 → decodeCmd w = .encRead (cmdF0 w)) ∧
  ∀ (a : Byte) (s : State),
    let crc := crc16 [a, 0x03, 0x00, 0x81, 0x00, 0x0C]
    exec (.encRead a) s = .next { s with
      block := { s.block with
        txbuf := ⟨a, 0x03, 0x00, 0x81, 0x00, 0x0C, crc.extractLsb' 0 8, crc.extractLsb' 8 8⟩,
        txlen := 8 } }

/-- R163: a word with OP 0x2 and the selector 0, 1 or 2 is the relay command of the address F0, the index F1 and
the delay F2, and the three relay commands leave the write-relay request with mode byte 0x01, 0x02 or 0x05, the
index and the delay as given, and change nothing else. -/
def Obligations.EncRelayFillsTheTransmitBuffer : Prop :=
  (∀ w : Word, cmdOp w = 0x2 →
    (cmdModeSel w = 0 → decodeCmd w = .encRelayOn (cmdF0 w) (cmdF1 w) (cmdF2 w)) ∧
    (cmdModeSel w = 1 → decodeCmd w = .encRelayOff (cmdF0 w) (cmdF1 w) (cmdF2 w)) ∧
    (cmdModeSel w = 2 → decodeCmd w = .encRelayMoment (cmdF0 w) (cmdF1 w) (cmdF2 w))) ∧
  ∀ (a i d m : Byte) (s : State) (cmd : Instr),
    (cmd = .encRelayOn a i d ∧ m = 0x01) ∨ (cmd = .encRelayOff a i d ∧ m = 0x02) ∨
      (cmd = .encRelayMoment a i d ∧ m = 0x05) →
    exec cmd s = .next { s with
      block := { s.block with
        txbuf := ⟨a, 0x06, 0x00, i, m, d, (crc16 [a, 0x06, 0x00, i, m, d]).extractLsb' 0 8,
          (crc16 [a, 0x06, 0x00, i, m, d]).extractLsb' 8 8⟩,
        txlen := 8 } }

/-- R165: a word with OP 0x3 is ENC_ILOCK of the address F0 and the selector SUB[2:0], and ENC_ILOCK leaves the
set-interlock request with the selector as mode code, 0x00 for the selectors 5 to 7, and changes nothing else. -/
def Obligations.EncIlockFillsTheTransmitBuffer : Prop :=
  (∀ w : Word, cmdOp w = 0x3 → decodeCmd w = .encIlock (cmdF0 w) (cmdModeSel3 w)) ∧
  ∀ (a : Byte) (sel : BitVec 3) (s : State),
    let m : Byte := if sel.toNat ≤ 4 then BitVec.ofNat 8 sel.toNat else 0x00
    let crc := crc16 [a, 0x06, 0x00, 0xFD, 0x00, m]
    exec (.encIlock a sel) s = .next { s with
      block := { s.block with
        txbuf := ⟨a, 0x06, 0x00, 0xFD, 0x00, m, crc.extractLsb' 0 8, crc.extractLsb' 8 8⟩,
        txlen := 8 } }

/-- R86, R164 and R224: the reserved words are those with OP 0x9 to 0xF and those with OP 0x2 and the selector 3,
and every reserved command sets CMDERR and changes nothing else. -/
def Obligations.ReservedCommandsOnlySetCmderr : Prop :=
  let reserved (i : Instr) : Prop :=
    i = .encRelayRsv ∨ i = .reserved9 ∨ (∃ x, i = .reservedAB x) ∨ (∃ x, i = .reservedCF x)
  (∀ w : Word, reserved (decodeCmd w) ↔ 0x9 ≤ (cmdOp w).toNat ∨ (cmdOp w = 0x2 ∧ cmdModeSel w = 3)) ∧
  ∀ (i : Instr) (s : State), reserved i →
    exec i s = .next { s with block := { s.block with cmderr := true } }

/-- What an encode command leaves in TXBUF is a well-formed request of R89, R90 or R91 and verifies as a
CRC-valid frame, so that a loopback of it decodes (R96, R160). -/
def Obligations.EncodedFramesAreValidRequests : Prop :=
  ∀ (i : Instr) (s t : State),
    (∃ a, i = .encRead a) ∨ (∃ a r d, i = .encRelayOn a r d ∨ i = .encRelayOff a r d ∨ i = .encRelayMoment a r d) ∨
      (∃ a sel, i = .encIlock a sel) →
    exec i s = .next t →
    frameCrcOk t.block.txbuf.toFrame = true ∧
    ∃ req : Instr, req.wf = true ∧ decode .request t.block.txbuf.toFrame = .ok req

/-! ## The delimiter -/

/-- R131: a byte is discarded while EN is 0; else it is appended to ASM and the silence restarts, and the byte
that fills MAX_FRAME closes the frame. -/
def Obligations.RxByteExtendsTheFrame : Prop :=
  ∀ (x : Byte) (s : State),
    (s.block.en = false → exec (.rxByte x) s = .next s) ∧
    (s.block.en = true → s.block.asm.length + 1 ≠ s.params.maxFrame →
      exec (.rxByte x) s = .next { s with block := { s.block with asm := s.block.asm ++ [x], sil := 0 } }) ∧
    (s.block.en = true → s.block.asm.length + 1 = s.params.maxFrame →
      exec (.rxByte x) s = .next { s with
        block := Block.closeFrame s.params { s.block with asm := s.block.asm ++ [x], sil := 0 } })

/-- R132: a tick does nothing while idle; else the silence counter goes up, saturating at 0xFFFF, and the frame
closes when it reaches CFG.QUIET. -/
def Obligations.TickCountsSilence : Prop :=
  ∀ s : State,
    (s.block.asm = [] → exec .tick s = .next s) ∧
    (s.block.asm ≠ [] → ∃ sil : Half, sil.toNat = min (s.block.sil.toNat + 1) 0xFFFF ∧
      (sil.toNat < s.block.quiet.toNat →
        exec .tick s = .next { s with block := { s.block with sil := sil } }) ∧
      (s.block.quiet.toNat ≤ sil.toNat →
        exec .tick s = .next { s with block := Block.closeFrame s.params { s.block with sil := sil } }))

/-- R133, R134 and R135, with the events of R222 and R223: what closing a frame does to every part of the
block. A frame of at least 4 bytes that verifies is valid; an invalid one is filtered when DROPBAD is 1; a
frame not filtered is pushed, or dropped when the FIFO is full. -/
def Obligations.CloseFrameStoresFiltersOrDrops : Prop :=
  ∀ (p : Params) (b : Block),
    let valid : Prop := 4 ≤ b.asm.length ∧ crcVerify b.asm = true
    let kept : Prop := valid ∨ b.dropbad = false
    let full : Prop := b.fifo.length = p.rxqDepth
    let c := b.closeFrame p
    c.asm = [] ∧ c.sil = 0 ∧
    c.cntFrames.toNat = min (b.cntFrames.toNat + 1) 0xFFFF ∧
    (valid → c.crcerr = b.crcerr ∧ c.cntCrcerr = b.cntCrcerr) ∧
    (¬ valid → c.crcerr = true ∧ c.cntCrcerr.toNat = min (b.cntCrcerr.toNat + 1) 0xFFFF) ∧
    (kept ∧ ¬ full → c.fifo = b.fifo ++ [b.asm]) ∧
    (¬ (kept ∧ ¬ full) → c.fifo = b.fifo) ∧
    (kept ∧ full → c.droperr = true ∧ c.cntDrop.toNat = min (b.cntDrop.toNat + 1) 0xFFFF) ∧
    (¬ (kept ∧ full) → c.droperr = b.droperr ∧ c.cntDrop = b.cntDrop) ∧
    c = { b with
      asm := c.asm, sil := c.sil, fifo := c.fifo, crcerr := c.crcerr, droperr := c.droperr,
      cntFrames := c.cntFrames, cntCrcerr := c.cntCrcerr, cntDrop := c.cntDrop }

/-- R140: a word with OP 0x7 is RX_ABORT, which discards the frame being assembled and changes nothing else; a
byte accepted after it starts a new frame. -/
def Obligations.RxAbortDiscardsTheFrame : Prop :=
  (∀ w : Word, cmdOp w = 0x7 → decodeCmd w = .rxAbort) ∧
  (∀ s : State, exec .rxAbort s = .next { s with block := { s.block with asm := [], sil := 0 } }) ∧
  (∀ (s : State) (x : Byte), s.params.Legal → s.block.en = true →
    runInstrs [.rxAbort, .rxByte x] s = .next { s with block := { s.block with asm := [x], sil := 0 } })

/-- R136, the gap rule: of two bytes accepted one after the other, with `k` ticks between them and none of the
disturbances R136 excludes, the second finds ASM empty and starts a new frame when `k ≥ CFG.QUIET`, and joins
the first in ASM when `k < CFG.QUIET`.
The byte that fills MAX_FRAME joins the frame that it closes. -/
def Obligations.GapRuleSplitsFramesBySilence : Prop :=
  ∀ (s : State) (b1 b2 : Byte) (es : List Event),
    s.Inv → s.block.en = true → s.block.asm.length + 1 < s.params.maxFrame →
    (∀ e ∈ es, gapEvent e = true) →
    ∃ t u, runEvents (.rxByte b1 :: es) s = .next t ∧ stepEvent (.rxByte b2) t = .next u ∧
      (s.block.quiet.toNat ≤ tickCount es → t.block.asm = [] ∧ u.block.asm = [b2]) ∧
      (tickCount es < s.block.quiet.toNat →
        t.block.asm = s.block.asm ++ [b1] ∧
        (s.block.asm.length + 2 < s.params.maxFrame → u.block.asm = s.block.asm ++ [b1, b2]) ∧
        (s.block.asm.length + 2 = s.params.maxFrame →
          u.block = Block.closeFrame s.params { t.block with
            asm := s.block.asm ++ [b1, b2], sil := 0 }))

/-- R137: after its last byte a frame stays out of the FIFO for CFG.QUIET - 1 ticks and enters it, or is
dropped or filtered, whole, at the CFG.QUIET-th; the byte that fills MAX_FRAME delivers it at once. -/
def Obligations.FramesAreDeliveredAtTheQuietTick : Prop :=
  ∀ (s : State) (x : Byte), s.Inv → s.block.en = true →
    (s.block.asm.length + 1 < s.params.maxFrame →
      (∀ k, k < s.block.quiet.toNat →
        ∃ t, runEvents (.rxByte x :: List.replicate k .tick) s = .next t ∧
          t.block.fifo = s.block.fifo ∧ t.block.asm = s.block.asm ++ [x]) ∧
      ∃ t, runEvents (.rxByte x :: List.replicate s.block.quiet.toNat .tick) s = .next t ∧
        t.block = Block.closeFrame s.params { s.block with
          asm := s.block.asm ++ [x], sil := s.block.quiet }) ∧
    (s.block.asm.length + 1 = s.params.maxFrame →
      ∃ t, stepEvent (.rxByte x) s = .next t ∧
        t.block = Block.closeFrame s.params { s.block with asm := s.block.asm ++ [x], sil := 0 })

/-- R138: let ticks arrive every TICK_PERIOD `P` at any phase, and let the next byte come a real time `g` after
the byte `x`, with `Q` for CFG.QUIET: if `g ≥ Q·P` it finds ASM empty, so the two are in different frames; if
`g ≤ (Q−1)·P` it finds `x` still in ASM, so they are in the same frame; strictly between, a phase exists for
either.
That times are whole numbers of the unit of `P` is the model's choice (log 7). -/
def Obligations.RealTimeGapIsExactToOneTick : Prop :=
  ∀ (s : State) (x : Byte) (g : Nat),
    s.Inv → s.block.en = true → s.block.asm.length + 1 < s.params.maxFrame →
    let P := s.params.tickPeriod
    let Q := s.block.quiet.toNat
    let asmAfter (phase t0 : Nat) (a : Frame) : Prop :=
      ∃ t, runEvents (.rxByte x :: List.replicate (ticksBetween P phase t0 (t0 + g)) .tick) s = .next t ∧
        t.block.asm = a
    (Q * P ≤ g → ∀ phase t0, phase < P → asmAfter phase t0 []) ∧
    (g ≤ (Q - 1) * P → ∀ phase t0, phase < P → asmAfter phase t0 (s.block.asm ++ [x])) ∧
    ((Q - 1) * P < g → g < Q * P →
      (∃ phase t0, phase < P ∧ asmAfter phase t0 []) ∧
      (∃ phase t0, phase < P ∧ asmAfter phase t0 (s.block.asm ++ [x])))

/-- R141: a write of CFG.QUIET while assembling never closes a frame; the next tick compares the incremented
silence with the new value, and closes the frame if it is reached. -/
def Obligations.QuietWriteActsAtTheNextTick : Prop :=
  ∀ (s : State) (v : Word), s.block.asm ≠ [] →
    ∃ t u, stepEvent (.access (.write 0x004 4 v)) s = .next t ∧ stepEvent .tick t = .next u ∧
      t.block = { s.block with quiet := t.block.quiet, incount := t.block.incount } ∧
      (t.block.quiet.toNat ≤ min (s.block.sil.toNat + 1) 0xFFFF → u.block.asm = []) ∧
      (min (s.block.sil.toNat + 1) 0xFFFF < t.block.quiet.toNat → u.block.asm = s.block.asm)

/-- R198: a word with OP 0x6 is RX_POP, which removes the head entry and changes nothing else, an empty FIFO stays
empty, and popping is the only way an entry leaves the FIFO, apart from reset; a frame that closes in the cycle
of a pop is processed after it. -/
def Obligations.OnlyPopAndResetRemoveEntries : Prop :=
  (∀ w : Word, cmdOp w = 0x6 → decodeCmd w = .rxPop) ∧
  (∀ s : State, exec .rxPop s = .next { s with block := { s.block with fifo := s.block.fifo.drop 1 } }) ∧
  (∀ s t : State, step s = .next t →
    s.block.fifo <+: t.block.fifo ∨
    ((nextEvent s.inputs).bind eventInstr = some .rxPop ∧ t.block.fifo = s.block.fifo.drop 1) ∨
    ((∃ a, nextEvent s.inputs = some (.reset a)) ∧ t.block.fifo = [])) ∧
  (∀ (s : State) (w : Word) (q : List Input), cmdOp w = 0x6 →
    s.inputs = .cycle { host := some (.write 0x008 4 w), tick := true } :: q →
    ∃ t u, step s = .next t ∧ step t = .next u ∧
      u.block = ({ s.block with fifo := s.block.fifo.drop 1 } : Block).tick s.params)

/-- R264: with depth `D`, if the host pops every frame `k` before frame `k + D` closes, no frame is dropped. -/
def Obligations.ServicedFifoNeverDrops : Prop :=
  ∀ (s : State) (es : List Event), s.Inv → s.block.fifo = [] → Serviced es s 0 0 →
    ∃ t, runEvents es s = .next t ∧
      (t.block.droperr = true → s.block.droperr = true) ∧ t.block.cntDrop.toNat ≤ s.block.cntDrop.toNat

/-! ## Wire frames on the line -/

/-- A wire frame reaches the block as its bytes in wire order, back to back: its own step is the RxByte of its
first byte, with the others put on the line before everything else, and the steps that take them are RxByte for
each (R5, R60, R66, R97).
That nothing else comes between the bytes of a frame that is run as one instruction is the model's choice (log 4);
cycles of bytes and ticks in any order are inputs too. -/
def Obligations.WireFramesArriveByteByByte : Prop :=
  ∀ (i : Instr) (s : State), i.channel = .request ∨ i.channel = .response →
    ∃ x bs t u, encode i = x :: bs ∧
      exec (.rxByte x) s = .next t ∧
      exec i s = .next { t with inputs := bs.map (fun y => .cycle { rx := some y }) ++ s.inputs } ∧
      runInstrs ((encode i).map .rxByte) s = .next u ∧
      Host.Core.run Sys2Proof.core bs.length
          { t with inputs := bs.map (fun y => .cycle { rx := some y }) ++ s.inputs } =
        .next { u with rdata := none }

/-- A wire frame shorter than MAX_FRAME that comes in while the enabled delimiter is idle stands whole in ASM once
its bytes are taken, one a step, and nothing else of the block changes (R95, R131; that nothing comes between the
bytes is the model's choice, log 4). -/
def Obligations.WireFramesFillTheAssemblyBuffer : Prop :=
  ∀ (i : Instr) (s : State), i.channel = .request ∨ i.channel = .response →
    s.block.en = true → s.block.asm = [] → (encode i).length < s.params.maxFrame →
    ∃ t, exec i s = .next t ∧
      Host.Core.run Sys2Proof.core ((encode i).length - 1) t = .next { s with
        block := { s.block with asm := encode i, sil := 0 }, rdata := none }

/-! ## Response decoding -/

/-- R180: with an empty FIFO every decoded register reads 0; else it is a function of the head entry and
CFG.INCOUNT alone. -/
def Obligations.DecodedRegistersReadTheHeadEntry : Prop :=
  (∀ (p : Params) (b : Block) (off n : Nat), b.fifo = [] →
    (0x020 ≤ off ∧ off ≤ 0x03C) ∨ (0x100 ≤ off ∧ off ≤ 0x1FC) → hostRead p b off n = 0) ∧
  (∀ (p p' : Params) (b b' : Block) (off n : Nat),
    b.fifo.head? = b'.fifo.head? → b.incount = b'.incount →
    (0x020 ≤ off ∧ off ≤ 0x03C) ∨ (0x100 ≤ off ∧ off ≤ 0x1FC) →
    hostRead p b off n = hostRead p' b' off n)

/-- R31, R181, R182, R184, R185, R188, R193, R194: every field of RXINFO for a head entry of legal length. -/
def Obligations.RxinfoDescribesTheHeadFrame : Prop :=
  ∀ (p : Params) (b : Block) (h : Frame) (rest : List Frame),
    b.fifo = h :: rest → 1 ≤ h.length → h.length ≤ 256 →
    let w := hostRead p b 0x020 4
    let n := h.length
    let ok : Prop := 4 ≤ n ∧ crcVerify h = true
    (w.extractLsb' 0 9).toNat = n ∧
    w.getLsbD 9 = crcVerify h ∧
    (w.getLsbD 10 = true ↔ ok) ∧
    (w.getLsbD 11 = true ↔ n < 4) ∧
    (w.getLsbD 12 = true ↔ ok ∧ h.getD 1 0 = 0x03) ∧
    (w.getLsbD 13 = true ↔ ok ∧ h.getD 1 0 = 0x06) ∧
    (w.getLsbD 14 = true ↔ ok ∧ h.getD 1 0 = 0x03 ∧ 5 ≤ n ∧ (h.getD 2 0).toNat ≠ n - 5) ∧
    w.getLsbD 15 = false ∧
    w.extractLsb' 16 8 = h.getD 0 0 ∧
    w.extractLsb' 24 8 = (if 2 ≤ n then h.getD 1 0 else 0)

/-- R32 and R183: RXCRC holds the trailing two bytes, low byte first, and the CRC of the bytes before them; both
are 0 for a one-byte frame. -/
def Obligations.RxcrcHoldsReceivedAndComputedCrc : Prop :=
  ∀ (p : Params) (b : Block) (h : Frame) (rest : List Frame), b.fifo = h :: rest →
    let w := hostRead p b 0x024 4
    let n := h.length
    (2 ≤ n → w.extractLsb' 0 8 = h.getD (n - 2) 0 ∧ w.extractLsb' 8 8 = h.getD (n - 1) 0 ∧
      w.extractLsb' 16 16 = crc16 (h.take (n - 2))) ∧
    (n < 2 → w = 0)

/-- R195 and R196: RXACK holds the echoed register and value of a CRC-valid 0x06 frame, each big-endian, and 0
where its bytes are absent or the frame is no acknowledgement. -/
def Obligations.RxackHoldsTheEchoedRegisterAndValue : Prop :=
  ∀ (p : Params) (b : Block) (h : Frame) (rest : List Frame), b.fifo = h :: rest →
    let w := hostRead p b 0x028 4
    let isAck : Prop := 4 ≤ h.length ∧ crcVerify h = true ∧ h.getD 1 0 = 0x06
    (isAck ∧ 6 ≤ h.length →
      (w.extractLsb' 0 16).toNat = (h.getD 2 0).toNat * 256 + (h.getD 3 0).toNat) ∧
    (¬ (isAck ∧ 6 ≤ h.length) → w.extractLsb' 0 16 = 0) ∧
    (isAck ∧ 8 ≤ h.length →
      (w.extractLsb' 16 16).toNat = (h.getD 4 0).toNat * 256 + (h.getD 5 0).toNat) ∧
    (¬ (isAck ∧ 8 ≤ h.length) → w.extractLsb' 16 16 = 0)

/-- R189, R190 and R191: RXREAD holds the byte count, the number of complete registers in the frame and the
validity bits of a CRC-valid 0x03 frame, and 0 where its bytes are absent or the frame is no read response.
No head frame is longer than 256 bytes (R39, R8). -/
def Obligations.RxreadCountsTheRegisters : Prop :=
  ∀ (p : Params) (b : Block) (h : Frame) (rest : List Frame), b.fifo = h :: rest → h.length ≤ 256 →
    let w := hostRead p b 0x02C 4
    let counted : Prop := 4 ≤ h.length ∧ crcVerify h = true ∧ h.getD 1 0 = 0x03 ∧ 5 ≤ h.length
    (counted → w.extractLsb' 0 8 = h.getD 2 0 ∧ (w.extractLsb' 8 8).toNat = (h.length - 5) / 2) ∧
    (¬ counted → w = 0) ∧
    (∀ i, i < 16 →
      (w.getLsbD (16 + i) = true ↔ counted ∧ i < b.incount.toNat ∧ i < (h.length - 5) / 2))

/-- R192: byte lane `i mod 4` of RXVAL(`i div 4`) is the low byte of register `i`, frame byte `2i + 4`, where
input `i` is valid, and 0 where it is not.
Input `i` is valid in a CRC-valid 0x03 frame when `i` is below INCOUNT and the frame holds both bytes of its
register (R190, R191). -/
def Obligations.RxvalHoldsTheLowBytes : Prop :=
  ∀ (p : Params) (b : Block) (h : Frame) (rest : List Frame), b.fifo = h :: rest →
    ∀ i, i < 16 →
      let v := (hostRead p b (0x030 + 4 * (i / 4)) 4).extractLsb' (8 * (i % 4)) 8
      let valid : Prop :=
        crcVerify h = true ∧ h.getD 1 0 = 0x03 ∧ i < b.incount.toNat ∧ 2 * i + 7 ≤ h.length
      (valid → v = h.getD (2 * i + 4) 0) ∧ (¬ valid → v = 0)

/-- R187 and R199: a head frame that is not CRC-valid, or whose function code is neither 0x03 nor 0x06, is not
interpreted: ISREAD, ISACK, BCMIS, RXACK, RXREAD and the RXVAL registers read 0. -/
def Obligations.OtherFramesAreNotInterpreted : Prop :=
  ∀ (p : Params) (b : Block) (h : Frame) (rest : List Frame), b.fifo = h :: rest →
    (h.length < 4 ∨ crcVerify h = false ∨ (h.getD 1 0 ≠ 0x03 ∧ h.getD 1 0 ≠ 0x06)) →
    (hostRead p b 0x020 4).extractLsb' 12 3 = 0 ∧
    (∀ off, 0x028 ≤ off → off ≤ 0x03C → hostRead p b off 4 = 0)

/-- R38 and R197: lane `j` of the RXDATA word at `0x100 + 4w` is head byte `4w + j`, and 0x00 at and past LEN. -/
def Obligations.RxdataWindowShowsTheHeadBytes : Prop :=
  ∀ (p : Params) (b : Block) (h : Frame) (rest : List Frame) (w j : Nat), b.fifo = h :: rest →
    w < 64 → j < 4 →
    (hostRead p b (0x100 + 4 * w) 4).extractLsb' (8 * j) 8 =
      if 4 * w + j < h.length then h.getD (4 * w + j) 0 else 0

/-- R256 and R202: with an entry in the FIFO, no event but an RX_POP, a CFG write and a reset changes what any
decoded register reads; a frame close never does. -/
def Obligations.TheHeadEntryHoldsBetweenPops : Prop :=
  ∀ (s t : State) (off n : Nat), step s = .next t → s.block.fifo ≠ [] →
    (nextEvent s.inputs).bind eventInstr ≠ some .rxPop → (∀ a, nextEvent s.inputs ≠ some (.reset a)) →
    (∀ v, nextEvent s.inputs ≠ some (.access (.write 0x004 4 v))) →
    (0x020 ≤ off ∧ off ≤ 0x03C) ∨ (0x100 ≤ off ∧ off ≤ 0x1FC) →
    hostRead t.params t.block off n = hostRead s.params s.block off n

/-! ## Errors, counters and the interrupt -/

/-- R226: apart from CNT_CLEAR and reset, CNT_FRAMES goes up by one, saturating at 0xFFFF, exactly when a frame
closes, CNT_CRCERR exactly when that frame is not CRC-valid, CNT_DROP exactly when it is not filtered and the FIFO
is full, and no counter changes otherwise, so none wraps. -/
def Obligations.CountersCountTheCloses : Prop :=
  ∀ s t : State, step s = .next t →
    (nextEvent s.inputs).bind eventInstr ≠ some .cntClear → (∀ a, nextEvent s.inputs ≠ some (.reset a)) →
    let b := s.block
    let counted (before after : Half) (yes : Prop) : Prop :=
      (yes → after.toNat = min (before.toNat + 1) 0xFFFF) ∧ (¬ yes → after = before)
    let ok (f : Frame) : Prop := 4 ≤ f.length ∧ crcVerify f = true
    let closes (f : Frame) : Prop := (nextEvent s.inputs).bind (closingFrame s.params b) = some f
    (b.cntFrames.toNat ≤ t.block.cntFrames.toNat ∧ b.cntCrcerr.toNat ≤ t.block.cntCrcerr.toNat ∧
      b.cntDrop.toNat ≤ t.block.cntDrop.toNat) ∧
    counted b.cntFrames t.block.cntFrames (∃ f, closes f) ∧
    counted b.cntCrcerr t.block.cntCrcerr (∃ f, closes f ∧ ¬ ok f) ∧
    counted b.cntDrop t.block.cntDrop
      (∃ f, closes f ∧ (ok f ∨ b.dropbad = false) ∧ b.fifo.length = s.params.rxqDepth)

/-- R41: the sticky bits are cleared only by a W1C write of their own STATUS bit or by reset. -/
def Obligations.StickyBitsClearOnlyByHostOrReset : Prop :=
  ∀ s t : State, step s = .next t →
    let clears (k : Nat) : Prop :=
      (∃ a, nextEvent s.inputs = some (.reset a)) ∨
        ∃ v, nextEvent s.inputs = some (.access (.write 0x00C 4 v)) ∧ v.getLsbD k = true
    (s.block.cmderr = true → t.block.cmderr = false → clears 4) ∧
    (s.block.droperr = true → t.block.droperr = false → clears 5) ∧
    (s.block.crcerr = true → t.block.crcerr = false → clears 6)

/-- R228: `irq` is high exactly when IE_RX is set with a frame in the FIFO or IE_ERR with a sticky bit; popping
every entry and writing 1 to the three sticky bits lowers it in the same step. -/
def Obligations.InterruptFollowsTheState : Prop :=
  (∀ b : Block, b.irq = true ↔
    (b.ieRx = true ∧ b.fifo ≠ []) ∨
      (b.ieErr = true ∧ (b.cmderr = true ∨ b.droperr = true ∨ b.crcerr = true))) ∧
  (∀ (s : State) (v : Word), v.extractLsb' 4 3 = 7 →
    ∃ t u, runInstrs (List.replicate s.block.fifo.length .rxPop) s = .next t ∧
      stepEvent (.access (.write 0x00C 4 v)) t = .next u ∧ u.block.irq = false)
end

