-- ==== Sys2Proof/Laws/Crc.lean ====
section
/-! SUPPORT. The small lemmas of the CRC functions. -/

namespace Sys2Proof.Machine

@[simp] theorem crc16_nil : crc16 [] = 0xFFFF := rfl

/-- The CRC of a longer sequence continues from the CRC of its beginning (R112). -/
theorem crc16_append (s t : Frame) : crc16 (s ++ t) = t.foldl crcUpdate (crc16 s) := by
  simp [crc16]

@[simp] theorem crcAppend_length (s : Frame) : (crcAppend s).length = s.length + 2 := by
  simp [crcAppend]

@[simp] theorem crcBody_crcAppend (s : Frame) : crcBody (crcAppend s) = s := by
  simp [crcBody, crcAppend]

/-- The two byte halves of a 16-bit word put together low byte first give the word back (R66). -/
theorem lowByte_or_highByte (c : Half) :
    (lowByte c).setWidth 16 ||| ((highByte c).setWidth 16 <<< 8) = c := by
  ext i hi
  simp only [lowByte, highByte, BitVec.getElem_or, BitVec.getElem_setWidth, BitVec.getElem_shiftLeft,
    BitVec.getLsbD_extractLsb']
  by_cases h : i < 8
  · simp [h, BitVec.getLsbD_eq_getElem hi]
  · have h1 : i - 8 < 8 := by omega
    have h3 : 8 + (i - 8) = i := by omega
    simp [h, h1, h3, BitVec.getLsbD_eq_getElem hi]

/-- The trailing two bytes of an appended sequence are its CRC (R113, R114). -/
@[simp] theorem crcTrailer_crcAppend (s : Frame) : crcTrailer (crcAppend s) = crc16 s := by
  rw [← lowByte_or_highByte (crc16 s)]
  simp [crcTrailer, crcAppend, byteAt]

/-- `verify(append(s))` holds (R115). -/
@[simp] theorem crcVerify_crcAppend (s : Frame) : crcVerify (crcAppend s) = true := by
  simp [crcVerify]

/-- No bit set, no mask: the zero register stays zero (R116). -/
@[simp] theorem crcShift_zero : crcShift 0 = 0 := rfl

end Sys2Proof.Machine
end

