-- ==== Sys2Proof/Laws/State.lean ====
section
/-! SUPPORT. One lemma for each field of State and Block under each update, true by rfl and in the simp set. -/

namespace Sys2Proof.Machine

section StateFields

variable (s : State) (b : Block) (q : List Input) (r : Option Word)

@[simp] theorem State.withBlock_params : (s.withBlock b).params = s.params := rfl
@[simp] theorem State.withBlock_block : (s.withBlock b).block = b := rfl
@[simp] theorem State.withBlock_inputs : (s.withBlock b).inputs = s.inputs := rfl
@[simp] theorem State.withBlock_rdata : (s.withBlock b).rdata = s.rdata := rfl
@[simp] theorem State.withInputs_params : (s.withInputs q).params = s.params := rfl
@[simp] theorem State.withInputs_block : (s.withInputs q).block = s.block := rfl
@[simp] theorem State.withInputs_inputs : (s.withInputs q).inputs = q := rfl
@[simp] theorem State.withInputs_rdata : (s.withInputs q).rdata = s.rdata := rfl
@[simp] theorem State.withRdata_params : (s.withRdata r).params = s.params := rfl
@[simp] theorem State.withRdata_block : (s.withRdata r).block = s.block := rfl
@[simp] theorem State.withRdata_inputs : (s.withRdata r).inputs = s.inputs := rfl
@[simp] theorem State.withRdata_rdata : (s.withRdata r).rdata = r := rfl

@[simp] theorem State.withBlock_self : s.withBlock s.block = s := rfl
@[simp] theorem State.withInputs_self : s.withInputs s.inputs = s := rfl
@[simp] theorem State.withRdata_self : s.withRdata s.rdata = s := rfl
@[simp] theorem State.withBlock_withBlock (b' : Block) : (s.withBlock b).withBlock b' = s.withBlock b' := rfl
@[simp] theorem State.withInputs_withInputs (q' : List Input) :
    (s.withInputs q).withInputs q' = s.withInputs q' := rfl
@[simp] theorem State.withRdata_withRdata (r' : Option Word) :
    (s.withRdata r).withRdata r' = s.withRdata r' := rfl

end StateFields

section BlockFields

variable (b : Block)

@[simp] theorem Block.raise_cmdReserved_en : (b.raise .cmdReserved).en = b.en := rfl
@[simp] theorem Block.raise_cmdReserved_ieRx : (b.raise .cmdReserved).ieRx = b.ieRx := rfl
@[simp] theorem Block.raise_cmdReserved_ieErr : (b.raise .cmdReserved).ieErr = b.ieErr := rfl
@[simp] theorem Block.raise_cmdReserved_dropbad : (b.raise .cmdReserved).dropbad = b.dropbad := rfl
@[simp] theorem Block.raise_cmdReserved_quiet : (b.raise .cmdReserved).quiet = b.quiet := rfl
@[simp] theorem Block.raise_cmdReserved_incount : (b.raise .cmdReserved).incount = b.incount := rfl
@[simp] theorem Block.raise_cmdReserved_crc : (b.raise .cmdReserved).crc = b.crc := rfl
@[simp] theorem Block.raise_cmdReserved_txbuf : (b.raise .cmdReserved).txbuf = b.txbuf := rfl
@[simp] theorem Block.raise_cmdReserved_txlen : (b.raise .cmdReserved).txlen = b.txlen := rfl
@[simp] theorem Block.raise_cmdReserved_asm : (b.raise .cmdReserved).asm = b.asm := rfl
@[simp] theorem Block.raise_cmdReserved_sil : (b.raise .cmdReserved).sil = b.sil := rfl
@[simp] theorem Block.raise_cmdReserved_fifo : (b.raise .cmdReserved).fifo = b.fifo := rfl
@[simp] theorem Block.raise_cmdReserved_cmderr : (b.raise .cmdReserved).cmderr = true := rfl
@[simp] theorem Block.raise_cmdReserved_droperr : (b.raise .cmdReserved).droperr = b.droperr := rfl
@[simp] theorem Block.raise_cmdReserved_crcerr : (b.raise .cmdReserved).crcerr = b.crcerr := rfl
@[simp] theorem Block.raise_cmdReserved_cntFrames : (b.raise .cmdReserved).cntFrames = b.cntFrames := rfl
@[simp] theorem Block.raise_cmdReserved_cntCrcerr : (b.raise .cmdReserved).cntCrcerr = b.cntCrcerr := rfl
@[simp] theorem Block.raise_cmdReserved_cntDrop : (b.raise .cmdReserved).cntDrop = b.cntDrop := rfl

@[simp] theorem Block.raise_rxDrop_en : (b.raise .rxDrop).en = b.en := rfl
@[simp] theorem Block.raise_rxDrop_ieRx : (b.raise .rxDrop).ieRx = b.ieRx := rfl
@[simp] theorem Block.raise_rxDrop_ieErr : (b.raise .rxDrop).ieErr = b.ieErr := rfl
@[simp] theorem Block.raise_rxDrop_dropbad : (b.raise .rxDrop).dropbad = b.dropbad := rfl
@[simp] theorem Block.raise_rxDrop_quiet : (b.raise .rxDrop).quiet = b.quiet := rfl
@[simp] theorem Block.raise_rxDrop_incount : (b.raise .rxDrop).incount = b.incount := rfl
@[simp] theorem Block.raise_rxDrop_crc : (b.raise .rxDrop).crc = b.crc := rfl
@[simp] theorem Block.raise_rxDrop_txbuf : (b.raise .rxDrop).txbuf = b.txbuf := rfl
@[simp] theorem Block.raise_rxDrop_txlen : (b.raise .rxDrop).txlen = b.txlen := rfl
@[simp] theorem Block.raise_rxDrop_asm : (b.raise .rxDrop).asm = b.asm := rfl
@[simp] theorem Block.raise_rxDrop_sil : (b.raise .rxDrop).sil = b.sil := rfl
@[simp] theorem Block.raise_rxDrop_fifo : (b.raise .rxDrop).fifo = b.fifo := rfl
@[simp] theorem Block.raise_rxDrop_cmderr : (b.raise .rxDrop).cmderr = b.cmderr := rfl
@[simp] theorem Block.raise_rxDrop_droperr : (b.raise .rxDrop).droperr = true := rfl
@[simp] theorem Block.raise_rxDrop_crcerr : (b.raise .rxDrop).crcerr = b.crcerr := rfl
@[simp] theorem Block.raise_rxDrop_cntFrames : (b.raise .rxDrop).cntFrames = b.cntFrames := rfl
@[simp] theorem Block.raise_rxDrop_cntCrcerr : (b.raise .rxDrop).cntCrcerr = b.cntCrcerr := rfl
@[simp] theorem Block.raise_rxDrop_cntDrop : (b.raise .rxDrop).cntDrop = satInc b.cntDrop := rfl

@[simp] theorem Block.raise_crcInvalid_en : (b.raise .crcInvalid).en = b.en := rfl
@[simp] theorem Block.raise_crcInvalid_ieRx : (b.raise .crcInvalid).ieRx = b.ieRx := rfl
@[simp] theorem Block.raise_crcInvalid_ieErr : (b.raise .crcInvalid).ieErr = b.ieErr := rfl
@[simp] theorem Block.raise_crcInvalid_dropbad : (b.raise .crcInvalid).dropbad = b.dropbad := rfl
@[simp] theorem Block.raise_crcInvalid_quiet : (b.raise .crcInvalid).quiet = b.quiet := rfl
@[simp] theorem Block.raise_crcInvalid_incount : (b.raise .crcInvalid).incount = b.incount := rfl
@[simp] theorem Block.raise_crcInvalid_crc : (b.raise .crcInvalid).crc = b.crc := rfl
@[simp] theorem Block.raise_crcInvalid_txbuf : (b.raise .crcInvalid).txbuf = b.txbuf := rfl
@[simp] theorem Block.raise_crcInvalid_txlen : (b.raise .crcInvalid).txlen = b.txlen := rfl
@[simp] theorem Block.raise_crcInvalid_asm : (b.raise .crcInvalid).asm = b.asm := rfl
@[simp] theorem Block.raise_crcInvalid_sil : (b.raise .crcInvalid).sil = b.sil := rfl
@[simp] theorem Block.raise_crcInvalid_fifo : (b.raise .crcInvalid).fifo = b.fifo := rfl
@[simp] theorem Block.raise_crcInvalid_cmderr : (b.raise .crcInvalid).cmderr = b.cmderr := rfl
@[simp] theorem Block.raise_crcInvalid_droperr : (b.raise .crcInvalid).droperr = b.droperr := rfl
@[simp] theorem Block.raise_crcInvalid_crcerr : (b.raise .crcInvalid).crcerr = true := rfl
@[simp] theorem Block.raise_crcInvalid_cntFrames : (b.raise .crcInvalid).cntFrames = b.cntFrames := rfl
@[simp] theorem Block.raise_crcInvalid_cntCrcerr : (b.raise .crcInvalid).cntCrcerr = satInc b.cntCrcerr := rfl
@[simp] theorem Block.raise_crcInvalid_cntDrop : (b.raise .crcInvalid).cntDrop = b.cntDrop := rfl

@[simp] theorem Block.clearSticky_en (v : Word) : (b.clearSticky v).en = b.en := rfl
@[simp] theorem Block.clearSticky_ieRx (v : Word) : (b.clearSticky v).ieRx = b.ieRx := rfl
@[simp] theorem Block.clearSticky_ieErr (v : Word) : (b.clearSticky v).ieErr = b.ieErr := rfl
@[simp] theorem Block.clearSticky_dropbad (v : Word) : (b.clearSticky v).dropbad = b.dropbad := rfl
@[simp] theorem Block.clearSticky_quiet (v : Word) : (b.clearSticky v).quiet = b.quiet := rfl
@[simp] theorem Block.clearSticky_incount (v : Word) : (b.clearSticky v).incount = b.incount := rfl
@[simp] theorem Block.clearSticky_crc (v : Word) : (b.clearSticky v).crc = b.crc := rfl
@[simp] theorem Block.clearSticky_txbuf (v : Word) : (b.clearSticky v).txbuf = b.txbuf := rfl
@[simp] theorem Block.clearSticky_txlen (v : Word) : (b.clearSticky v).txlen = b.txlen := rfl
@[simp] theorem Block.clearSticky_asm (v : Word) : (b.clearSticky v).asm = b.asm := rfl
@[simp] theorem Block.clearSticky_sil (v : Word) : (b.clearSticky v).sil = b.sil := rfl
@[simp] theorem Block.clearSticky_fifo (v : Word) : (b.clearSticky v).fifo = b.fifo := rfl
@[simp] theorem Block.clearSticky_cmderr (v : Word) : (b.clearSticky v).cmderr = (b.cmderr && !v.getLsbD 4) := rfl
@[simp] theorem Block.clearSticky_droperr (v : Word) : (b.clearSticky v).droperr = (b.droperr && !v.getLsbD 5) := rfl
@[simp] theorem Block.clearSticky_crcerr (v : Word) : (b.clearSticky v).crcerr = (b.crcerr && !v.getLsbD 6) := rfl
@[simp] theorem Block.clearSticky_cntFrames (v : Word) : (b.clearSticky v).cntFrames = b.cntFrames := rfl
@[simp] theorem Block.clearSticky_cntCrcerr (v : Word) : (b.clearSticky v).cntCrcerr = b.cntCrcerr := rfl
@[simp] theorem Block.clearSticky_cntDrop (v : Word) : (b.clearSticky v).cntDrop = b.cntDrop := rfl

@[simp] theorem Block.discardAsm_en : (b.discardAsm).en = b.en := rfl
@[simp] theorem Block.discardAsm_ieRx : (b.discardAsm).ieRx = b.ieRx := rfl
@[simp] theorem Block.discardAsm_ieErr : (b.discardAsm).ieErr = b.ieErr := rfl
@[simp] theorem Block.discardAsm_dropbad : (b.discardAsm).dropbad = b.dropbad := rfl
@[simp] theorem Block.discardAsm_quiet : (b.discardAsm).quiet = b.quiet := rfl
@[simp] theorem Block.discardAsm_incount : (b.discardAsm).incount = b.incount := rfl
@[simp] theorem Block.discardAsm_crc : (b.discardAsm).crc = b.crc := rfl
@[simp] theorem Block.discardAsm_txbuf : (b.discardAsm).txbuf = b.txbuf := rfl
@[simp] theorem Block.discardAsm_txlen : (b.discardAsm).txlen = b.txlen := rfl
@[simp] theorem Block.discardAsm_asm : (b.discardAsm).asm = [] := rfl
@[simp] theorem Block.discardAsm_sil : (b.discardAsm).sil = 0 := rfl
@[simp] theorem Block.discardAsm_fifo : (b.discardAsm).fifo = b.fifo := rfl
@[simp] theorem Block.discardAsm_cmderr : (b.discardAsm).cmderr = b.cmderr := rfl
@[simp] theorem Block.discardAsm_droperr : (b.discardAsm).droperr = b.droperr := rfl
@[simp] theorem Block.discardAsm_crcerr : (b.discardAsm).crcerr = b.crcerr := rfl
@[simp] theorem Block.discardAsm_cntFrames : (b.discardAsm).cntFrames = b.cntFrames := rfl
@[simp] theorem Block.discardAsm_cntCrcerr : (b.discardAsm).cntCrcerr = b.cntCrcerr := rfl
@[simp] theorem Block.discardAsm_cntDrop : (b.discardAsm).cntDrop = b.cntDrop := rfl

@[simp] theorem Block.pushFifo_en (f : Frame) : (b.pushFifo f).en = b.en := rfl
@[simp] theorem Block.pushFifo_ieRx (f : Frame) : (b.pushFifo f).ieRx = b.ieRx := rfl
@[simp] theorem Block.pushFifo_ieErr (f : Frame) : (b.pushFifo f).ieErr = b.ieErr := rfl
@[simp] theorem Block.pushFifo_dropbad (f : Frame) : (b.pushFifo f).dropbad = b.dropbad := rfl
@[simp] theorem Block.pushFifo_quiet (f : Frame) : (b.pushFifo f).quiet = b.quiet := rfl
@[simp] theorem Block.pushFifo_incount (f : Frame) : (b.pushFifo f).incount = b.incount := rfl
@[simp] theorem Block.pushFifo_crc (f : Frame) : (b.pushFifo f).crc = b.crc := rfl
@[simp] theorem Block.pushFifo_txbuf (f : Frame) : (b.pushFifo f).txbuf = b.txbuf := rfl
@[simp] theorem Block.pushFifo_txlen (f : Frame) : (b.pushFifo f).txlen = b.txlen := rfl
@[simp] theorem Block.pushFifo_asm (f : Frame) : (b.pushFifo f).asm = b.asm := rfl
@[simp] theorem Block.pushFifo_sil (f : Frame) : (b.pushFifo f).sil = b.sil := rfl
@[simp] theorem Block.pushFifo_fifo (f : Frame) : (b.pushFifo f).fifo = b.fifo ++ [f] := rfl
@[simp] theorem Block.pushFifo_cmderr (f : Frame) : (b.pushFifo f).cmderr = b.cmderr := rfl
@[simp] theorem Block.pushFifo_droperr (f : Frame) : (b.pushFifo f).droperr = b.droperr := rfl
@[simp] theorem Block.pushFifo_crcerr (f : Frame) : (b.pushFifo f).crcerr = b.crcerr := rfl
@[simp] theorem Block.pushFifo_cntFrames (f : Frame) : (b.pushFifo f).cntFrames = b.cntFrames := rfl
@[simp] theorem Block.pushFifo_cntCrcerr (f : Frame) : (b.pushFifo f).cntCrcerr = b.cntCrcerr := rfl
@[simp] theorem Block.pushFifo_cntDrop (f : Frame) : (b.pushFifo f).cntDrop = b.cntDrop := rfl

@[simp] theorem Block.popFifo_en : (b.popFifo).en = b.en := rfl
@[simp] theorem Block.popFifo_ieRx : (b.popFifo).ieRx = b.ieRx := rfl
@[simp] theorem Block.popFifo_ieErr : (b.popFifo).ieErr = b.ieErr := rfl
@[simp] theorem Block.popFifo_dropbad : (b.popFifo).dropbad = b.dropbad := rfl
@[simp] theorem Block.popFifo_quiet : (b.popFifo).quiet = b.quiet := rfl
@[simp] theorem Block.popFifo_incount : (b.popFifo).incount = b.incount := rfl
@[simp] theorem Block.popFifo_crc : (b.popFifo).crc = b.crc := rfl
@[simp] theorem Block.popFifo_txbuf : (b.popFifo).txbuf = b.txbuf := rfl
@[simp] theorem Block.popFifo_txlen : (b.popFifo).txlen = b.txlen := rfl
@[simp] theorem Block.popFifo_asm : (b.popFifo).asm = b.asm := rfl
@[simp] theorem Block.popFifo_sil : (b.popFifo).sil = b.sil := rfl
@[simp] theorem Block.popFifo_fifo : (b.popFifo).fifo = b.fifo.tail := rfl
@[simp] theorem Block.popFifo_cmderr : (b.popFifo).cmderr = b.cmderr := rfl
@[simp] theorem Block.popFifo_droperr : (b.popFifo).droperr = b.droperr := rfl
@[simp] theorem Block.popFifo_crcerr : (b.popFifo).crcerr = b.crcerr := rfl
@[simp] theorem Block.popFifo_cntFrames : (b.popFifo).cntFrames = b.cntFrames := rfl
@[simp] theorem Block.popFifo_cntCrcerr : (b.popFifo).cntCrcerr = b.cntCrcerr := rfl
@[simp] theorem Block.popFifo_cntDrop : (b.popFifo).cntDrop = b.cntDrop := rfl

@[simp] theorem Block.takeFrame_en : (b.takeFrame).en = b.en := rfl
@[simp] theorem Block.takeFrame_ieRx : (b.takeFrame).ieRx = b.ieRx := rfl
@[simp] theorem Block.takeFrame_ieErr : (b.takeFrame).ieErr = b.ieErr := rfl
@[simp] theorem Block.takeFrame_dropbad : (b.takeFrame).dropbad = b.dropbad := rfl
@[simp] theorem Block.takeFrame_quiet : (b.takeFrame).quiet = b.quiet := rfl
@[simp] theorem Block.takeFrame_incount : (b.takeFrame).incount = b.incount := rfl
@[simp] theorem Block.takeFrame_crc : (b.takeFrame).crc = b.crc := rfl
@[simp] theorem Block.takeFrame_txbuf : (b.takeFrame).txbuf = b.txbuf := rfl
@[simp] theorem Block.takeFrame_txlen : (b.takeFrame).txlen = b.txlen := rfl
@[simp] theorem Block.takeFrame_asm : (b.takeFrame).asm = [] := rfl
@[simp] theorem Block.takeFrame_sil : (b.takeFrame).sil = 0 := rfl
@[simp] theorem Block.takeFrame_fifo : (b.takeFrame).fifo = b.fifo := rfl
@[simp] theorem Block.takeFrame_cmderr : (b.takeFrame).cmderr = b.cmderr := rfl
@[simp] theorem Block.takeFrame_droperr : (b.takeFrame).droperr = b.droperr := rfl
@[simp] theorem Block.takeFrame_crcerr : (b.takeFrame).crcerr = b.crcerr := rfl
@[simp] theorem Block.takeFrame_cntFrames : (b.takeFrame).cntFrames = satInc b.cntFrames := rfl
@[simp] theorem Block.takeFrame_cntCrcerr : (b.takeFrame).cntCrcerr = b.cntCrcerr := rfl
@[simp] theorem Block.takeFrame_cntDrop : (b.takeFrame).cntDrop = b.cntDrop := rfl

@[simp] theorem Block.acceptByte_en (x : Byte) : (b.acceptByte x).en = b.en := rfl
@[simp] theorem Block.acceptByte_ieRx (x : Byte) : (b.acceptByte x).ieRx = b.ieRx := rfl
@[simp] theorem Block.acceptByte_ieErr (x : Byte) : (b.acceptByte x).ieErr = b.ieErr := rfl
@[simp] theorem Block.acceptByte_dropbad (x : Byte) : (b.acceptByte x).dropbad = b.dropbad := rfl
@[simp] theorem Block.acceptByte_quiet (x : Byte) : (b.acceptByte x).quiet = b.quiet := rfl
@[simp] theorem Block.acceptByte_incount (x : Byte) : (b.acceptByte x).incount = b.incount := rfl
@[simp] theorem Block.acceptByte_crc (x : Byte) : (b.acceptByte x).crc = b.crc := rfl
@[simp] theorem Block.acceptByte_txbuf (x : Byte) : (b.acceptByte x).txbuf = b.txbuf := rfl
@[simp] theorem Block.acceptByte_txlen (x : Byte) : (b.acceptByte x).txlen = b.txlen := rfl
@[simp] theorem Block.acceptByte_asm (x : Byte) : (b.acceptByte x).asm = b.asm ++ [x] := rfl
@[simp] theorem Block.acceptByte_sil (x : Byte) : (b.acceptByte x).sil = 0 := rfl
@[simp] theorem Block.acceptByte_fifo (x : Byte) : (b.acceptByte x).fifo = b.fifo := rfl
@[simp] theorem Block.acceptByte_cmderr (x : Byte) : (b.acceptByte x).cmderr = b.cmderr := rfl
@[simp] theorem Block.acceptByte_droperr (x : Byte) : (b.acceptByte x).droperr = b.droperr := rfl
@[simp] theorem Block.acceptByte_crcerr (x : Byte) : (b.acceptByte x).crcerr = b.crcerr := rfl
@[simp] theorem Block.acceptByte_cntFrames (x : Byte) : (b.acceptByte x).cntFrames = b.cntFrames := rfl
@[simp] theorem Block.acceptByte_cntCrcerr (x : Byte) : (b.acceptByte x).cntCrcerr = b.cntCrcerr := rfl
@[simp] theorem Block.acceptByte_cntDrop (x : Byte) : (b.acceptByte x).cntDrop = b.cntDrop := rfl

@[simp] theorem Block.countSilence_en : (b.countSilence).en = b.en := rfl
@[simp] theorem Block.countSilence_ieRx : (b.countSilence).ieRx = b.ieRx := rfl
@[simp] theorem Block.countSilence_ieErr : (b.countSilence).ieErr = b.ieErr := rfl
@[simp] theorem Block.countSilence_dropbad : (b.countSilence).dropbad = b.dropbad := rfl
@[simp] theorem Block.countSilence_quiet : (b.countSilence).quiet = b.quiet := rfl
@[simp] theorem Block.countSilence_incount : (b.countSilence).incount = b.incount := rfl
@[simp] theorem Block.countSilence_crc : (b.countSilence).crc = b.crc := rfl
@[simp] theorem Block.countSilence_txbuf : (b.countSilence).txbuf = b.txbuf := rfl
@[simp] theorem Block.countSilence_txlen : (b.countSilence).txlen = b.txlen := rfl
@[simp] theorem Block.countSilence_asm : (b.countSilence).asm = b.asm := rfl
@[simp] theorem Block.countSilence_sil : (b.countSilence).sil = satInc b.sil := rfl
@[simp] theorem Block.countSilence_fifo : (b.countSilence).fifo = b.fifo := rfl
@[simp] theorem Block.countSilence_cmderr : (b.countSilence).cmderr = b.cmderr := rfl
@[simp] theorem Block.countSilence_droperr : (b.countSilence).droperr = b.droperr := rfl
@[simp] theorem Block.countSilence_crcerr : (b.countSilence).crcerr = b.crcerr := rfl
@[simp] theorem Block.countSilence_cntFrames : (b.countSilence).cntFrames = b.cntFrames := rfl
@[simp] theorem Block.countSilence_cntCrcerr : (b.countSilence).cntCrcerr = b.cntCrcerr := rfl
@[simp] theorem Block.countSilence_cntDrop : (b.countSilence).cntDrop = b.cntDrop := rfl

@[simp] theorem Block.encodeTx_en (body : Frame) : (b.encodeTx body).en = b.en := rfl
@[simp] theorem Block.encodeTx_ieRx (body : Frame) : (b.encodeTx body).ieRx = b.ieRx := rfl
@[simp] theorem Block.encodeTx_ieErr (body : Frame) : (b.encodeTx body).ieErr = b.ieErr := rfl
@[simp] theorem Block.encodeTx_dropbad (body : Frame) : (b.encodeTx body).dropbad = b.dropbad := rfl
@[simp] theorem Block.encodeTx_quiet (body : Frame) : (b.encodeTx body).quiet = b.quiet := rfl
@[simp] theorem Block.encodeTx_incount (body : Frame) : (b.encodeTx body).incount = b.incount := rfl
@[simp] theorem Block.encodeTx_crc (body : Frame) : (b.encodeTx body).crc = b.crc := rfl
@[simp] theorem Block.encodeTx_txbuf (body : Frame) : (b.encodeTx body).txbuf = TxBuf.ofFrame (crcAppend body) := rfl
@[simp] theorem Block.encodeTx_txlen (body : Frame) : (b.encodeTx body).txlen = 8 := rfl
@[simp] theorem Block.encodeTx_asm (body : Frame) : (b.encodeTx body).asm = b.asm := rfl
@[simp] theorem Block.encodeTx_sil (body : Frame) : (b.encodeTx body).sil = b.sil := rfl
@[simp] theorem Block.encodeTx_fifo (body : Frame) : (b.encodeTx body).fifo = b.fifo := rfl
@[simp] theorem Block.encodeTx_cmderr (body : Frame) : (b.encodeTx body).cmderr = b.cmderr := rfl
@[simp] theorem Block.encodeTx_droperr (body : Frame) : (b.encodeTx body).droperr = b.droperr := rfl
@[simp] theorem Block.encodeTx_crcerr (body : Frame) : (b.encodeTx body).crcerr = b.crcerr := rfl
@[simp] theorem Block.encodeTx_cntFrames (body : Frame) : (b.encodeTx body).cntFrames = b.cntFrames := rfl
@[simp] theorem Block.encodeTx_cntCrcerr (body : Frame) : (b.encodeTx body).cntCrcerr = b.cntCrcerr := rfl
@[simp] theorem Block.encodeTx_cntDrop (body : Frame) : (b.encodeTx body).cntDrop = b.cntDrop := rfl

@[simp] theorem Block.writeCtrl_en (v : Word) : (b.writeCtrl v).en = v.getLsbD 0 := rfl
@[simp] theorem Block.writeCtrl_ieRx (v : Word) : (b.writeCtrl v).ieRx = v.getLsbD 1 := rfl
@[simp] theorem Block.writeCtrl_ieErr (v : Word) : (b.writeCtrl v).ieErr = v.getLsbD 2 := rfl
@[simp] theorem Block.writeCtrl_dropbad (v : Word) : (b.writeCtrl v).dropbad = v.getLsbD 3 := rfl
@[simp] theorem Block.writeCtrl_quiet (v : Word) : (b.writeCtrl v).quiet = b.quiet := rfl
@[simp] theorem Block.writeCtrl_incount (v : Word) : (b.writeCtrl v).incount = b.incount := rfl
@[simp] theorem Block.writeCtrl_crc (v : Word) : (b.writeCtrl v).crc = b.crc := rfl
@[simp] theorem Block.writeCtrl_txbuf (v : Word) : (b.writeCtrl v).txbuf = b.txbuf := rfl
@[simp] theorem Block.writeCtrl_txlen (v : Word) : (b.writeCtrl v).txlen = b.txlen := rfl
@[simp] theorem Block.writeCtrl_asm (v : Word) : (b.writeCtrl v).asm = if b.clearsEn v then [] else b.asm := rfl
@[simp] theorem Block.writeCtrl_sil (v : Word) : (b.writeCtrl v).sil = if b.clearsEn v then 0 else b.sil := rfl
@[simp] theorem Block.writeCtrl_fifo (v : Word) : (b.writeCtrl v).fifo = b.fifo := rfl
@[simp] theorem Block.writeCtrl_cmderr (v : Word) : (b.writeCtrl v).cmderr = b.cmderr := rfl
@[simp] theorem Block.writeCtrl_droperr (v : Word) : (b.writeCtrl v).droperr = b.droperr := rfl
@[simp] theorem Block.writeCtrl_crcerr (v : Word) : (b.writeCtrl v).crcerr = b.crcerr := rfl
@[simp] theorem Block.writeCtrl_cntFrames (v : Word) : (b.writeCtrl v).cntFrames = b.cntFrames := rfl
@[simp] theorem Block.writeCtrl_cntCrcerr (v : Word) : (b.writeCtrl v).cntCrcerr = b.cntCrcerr := rfl
@[simp] theorem Block.writeCtrl_cntDrop (v : Word) : (b.writeCtrl v).cntDrop = b.cntDrop := rfl

@[simp] theorem Block.writeCfg_en (v : Word) : (b.writeCfg v).en = b.en := rfl
@[simp] theorem Block.writeCfg_ieRx (v : Word) : (b.writeCfg v).ieRx = b.ieRx := rfl
@[simp] theorem Block.writeCfg_ieErr (v : Word) : (b.writeCfg v).ieErr = b.ieErr := rfl
@[simp] theorem Block.writeCfg_dropbad (v : Word) : (b.writeCfg v).dropbad = b.dropbad := rfl
@[simp] theorem Block.writeCfg_quiet (v : Word) : (b.writeCfg v).quiet = legalQuiet (v.extractLsb' 0 16) := rfl
@[simp] theorem Block.writeCfg_incount (v : Word) : (b.writeCfg v).incount = legalIncount (v.extractLsb' 16 5) := rfl
@[simp] theorem Block.writeCfg_crc (v : Word) : (b.writeCfg v).crc = b.crc := rfl
@[simp] theorem Block.writeCfg_txbuf (v : Word) : (b.writeCfg v).txbuf = b.txbuf := rfl
@[simp] theorem Block.writeCfg_txlen (v : Word) : (b.writeCfg v).txlen = b.txlen := rfl
@[simp] theorem Block.writeCfg_asm (v : Word) : (b.writeCfg v).asm = b.asm := rfl
@[simp] theorem Block.writeCfg_sil (v : Word) : (b.writeCfg v).sil = b.sil := rfl
@[simp] theorem Block.writeCfg_fifo (v : Word) : (b.writeCfg v).fifo = b.fifo := rfl
@[simp] theorem Block.writeCfg_cmderr (v : Word) : (b.writeCfg v).cmderr = b.cmderr := rfl
@[simp] theorem Block.writeCfg_droperr (v : Word) : (b.writeCfg v).droperr = b.droperr := rfl
@[simp] theorem Block.writeCfg_crcerr (v : Word) : (b.writeCfg v).crcerr = b.crcerr := rfl
@[simp] theorem Block.writeCfg_cntFrames (v : Word) : (b.writeCfg v).cntFrames = b.cntFrames := rfl
@[simp] theorem Block.writeCfg_cntCrcerr (v : Word) : (b.writeCfg v).cntCrcerr = b.cntCrcerr := rfl
@[simp] theorem Block.writeCfg_cntDrop (v : Word) : (b.writeCfg v).cntDrop = b.cntDrop := rfl

end BlockFields

end Sys2Proof.Machine
end

