-- ==== Sys2Proof/Laws/Ops.lean ====
section
/-! SUPPORT. What each shared operation can do, said once: closing a frame, a byte, a tick, and what they leave alone. -/

namespace Sys2Proof.Machine

theorem satInc_toNat (x : Half) : (satInc x).toNat = min (x.toNat + 1) 0xFFFF := by
  unfold satInc
  split
  · next h => simp [eq_of_beq h]
  · next h =>
    have hx : x.toNat ≠ 65535 := fun e => h (beq_iff_eq.mpr (BitVec.eq_of_toNat_eq e))
    have := x.isLt
    rw [BitVec.toNat_add]
    simp
    omega

theorem assembling_iff (b : Block) : b.assembling = true ↔ b.asm ≠ [] := by
  simp [Block.assembling, List.length_pos_iff]

theorem rxne_iff (b : Block) : b.rxne = true ↔ b.fifo ≠ [] := by
  simp [Block.rxne, List.length_pos_iff]

theorem rxfull_iff (p : Params) (b : Block) : b.rxfull p = true ↔ b.fifo.length = p.rxqDepth := by
  simp [Block.rxfull]

/-- The FIFO test either drops the frame, when the FIFO is full, or pushes it (R133, R135). -/
theorem enqueue_cases (p : Params) (f : Frame) (b : Block) :
    (b.fifo.length = p.rxqDepth ∧ b.enqueue p f = b.raise .rxDrop) ∨
    (b.fifo.length ≠ p.rxqDepth ∧ b.enqueue p f = b.pushFifo f) := by
  by_cases h : b.fifo.length = p.rxqDepth
  · exact .inl ⟨h, by simp [Block.enqueue, (rxfull_iff p b).2 h]⟩
  · exact .inr ⟨h, by simp [Block.enqueue, mt (rxfull_iff p b).1 h]⟩

/-- Everything closing a frame can do (R133, R134, R135, R230). -/
theorem closeFrame_cases (p : Params) (b : Block) :
    (frameCrcOk b.asm = true ∧ b.fifo.length = p.rxqDepth ∧
      b.closeFrame p = b.takeFrame.raise .rxDrop) ∨
    (frameCrcOk b.asm = true ∧ b.fifo.length ≠ p.rxqDepth ∧
      b.closeFrame p = b.takeFrame.pushFifo b.asm) ∨
    (frameCrcOk b.asm = false ∧ b.dropbad = true ∧
      b.closeFrame p = b.takeFrame.raise .crcInvalid) ∨
    (frameCrcOk b.asm = false ∧ b.dropbad = false ∧ b.fifo.length = p.rxqDepth ∧
      b.closeFrame p = (b.takeFrame.raise .crcInvalid).raise .rxDrop) ∨
    (frameCrcOk b.asm = false ∧ b.dropbad = false ∧ b.fifo.length ≠ p.rxqDepth ∧
      b.closeFrame p = (b.takeFrame.raise .crcInvalid).pushFifo b.asm) := by
  cases hv : frameCrcOk b.asm
  · cases hd : b.dropbad
    · rcases enqueue_cases p b.asm (b.takeFrame.raise .crcInvalid) with ⟨h, e⟩ | ⟨h, e⟩ <;>
        simp_all [Block.closeFrame]
    · simp [Block.closeFrame, hv, hd]
  · rcases enqueue_cases p b.asm b.takeFrame with ⟨h, e⟩ | ⟨h, e⟩ <;> simp_all [Block.closeFrame]

/-- A byte is discarded, extends the frame, or fills it to MAX_FRAME and closes it (R131). -/
theorem rxByte_cases (p : Params) (x : Byte) (b : Block) :
    (b.en = false ∧ b.rxByte p x = b) ∨
    (b.en = true ∧ b.asm.length + 1 ≠ p.maxFrame ∧ b.rxByte p x = b.acceptByte x) ∨
    (b.en = true ∧ b.asm.length + 1 = p.maxFrame ∧ b.rxByte p x = (b.acceptByte x).closeFrame p) := by
  cases he : b.en
  · simp [Block.rxByte, he]
  · by_cases h : b.asm.length + 1 = p.maxFrame <;> simp [Block.rxByte, he, h]

/-- A tick finds the block idle, counts the silence, or closes the frame (R132). -/
theorem tick_cases (p : Params) (b : Block) :
    (b.asm = [] ∧ b.tick p = b) ∨
    (b.asm ≠ [] ∧ (satInc b.sil).toNat < b.quiet.toNat ∧ b.tick p = b.countSilence) ∨
    (b.asm ≠ [] ∧ b.quiet.toNat ≤ (satInc b.sil).toNat ∧ b.tick p = b.countSilence.closeFrame p) := by
  by_cases ha : b.asm = []
  · simp [Block.tick, Block.assembling, ha]
  · have := (assembling_iff b).2 ha
    by_cases h : b.quiet.toNat ≤ (satInc b.sil).toNat
    · simp [Block.tick, this, ha, h]
    · simp [Block.tick, this, ha, h]
      omega

section CloseFrame

variable (p : Params) (b : Block)

@[simp] theorem closeFrame_asm : (b.closeFrame p).asm = [] := by
  rcases closeFrame_cases p b with h | h | h | h | h <;> simp [h]
@[simp] theorem closeFrame_sil : (b.closeFrame p).sil = 0 := by
  rcases closeFrame_cases p b with h | h | h | h | h <;> simp [h]
@[simp] theorem closeFrame_en : (b.closeFrame p).en = b.en := by
  rcases closeFrame_cases p b with h | h | h | h | h <;> simp [h]
@[simp] theorem closeFrame_ieRx : (b.closeFrame p).ieRx = b.ieRx := by
  rcases closeFrame_cases p b with h | h | h | h | h <;> simp [h]
@[simp] theorem closeFrame_ieErr : (b.closeFrame p).ieErr = b.ieErr := by
  rcases closeFrame_cases p b with h | h | h | h | h <;> simp [h]
@[simp] theorem closeFrame_dropbad : (b.closeFrame p).dropbad = b.dropbad := by
  rcases closeFrame_cases p b with h | h | h | h | h <;> simp [h]
@[simp] theorem closeFrame_quiet : (b.closeFrame p).quiet = b.quiet := by
  rcases closeFrame_cases p b with h | h | h | h | h <;> simp [h]
@[simp] theorem closeFrame_incount : (b.closeFrame p).incount = b.incount := by
  rcases closeFrame_cases p b with h | h | h | h | h <;> simp [h]
@[simp] theorem closeFrame_crc : (b.closeFrame p).crc = b.crc := by
  rcases closeFrame_cases p b with h | h | h | h | h <;> simp [h]
@[simp] theorem closeFrame_txbuf : (b.closeFrame p).txbuf = b.txbuf := by
  rcases closeFrame_cases p b with h | h | h | h | h <;> simp [h]
@[simp] theorem closeFrame_txlen : (b.closeFrame p).txlen = b.txlen := by
  rcases closeFrame_cases p b with h | h | h | h | h <;> simp [h]
@[simp] theorem closeFrame_cmderr : (b.closeFrame p).cmderr = b.cmderr := by
  rcases closeFrame_cases p b with h | h | h | h | h <;> simp [h]
@[simp] theorem closeFrame_cntFrames : (b.closeFrame p).cntFrames = satInc b.cntFrames := by
  rcases closeFrame_cases p b with h | h | h | h | h <;> simp [h]

end CloseFrame

/-- Closing a frame leaves the FIFO or appends the frame to it (R133, R135). -/
theorem closeFrame_fifo (p : Params) (b : Block) :
    (b.closeFrame p).fifo = b.fifo ∨
    (b.fifo.length ≠ p.rxqDepth ∧ (b.closeFrame p).fifo = b.fifo ++ [b.asm]) := by
  rcases closeFrame_cases p b with h | h | h | h | h <;> simp [h]

section Deliver
variable (x : Byte) (bs : Frame) (s : State)

@[simp] theorem deliver_nil : s.deliver [] = s := rfl

/-- A wire sequence is the `RxByte` of its first byte, with the rest in the queue. -/
@[simp] theorem deliver_cons :
    s.deliver (x :: bs) =
      (s.withBlock (s.block.rxByte s.params x)).withInputs (bs.map lineCycle ++ s.inputs) := rfl

end Deliver

end Sys2Proof.Machine
end

