-- ==== Sys2Proof/Laws/Exec.lean ====
section
/-! SUPPORT. The inversion lemmas of `exec` and `step`: every instruction and every event answers a next state, and which one. -/

namespace Sys2Proof.Machine

/-- The block an instruction leaves: `exec` seen as a function on the block.
A wire frame receives its first byte, the address. -/
def instrBlock (p : Params) (i : Instr) (b : Block) : Block :=
  match i with
  | .nop => b
  | .encRead a => b.encodeTx (readBody a)
  | .encRelayOn a r d => b.encodeTx (relayBody a r .on d)
  | .encRelayOff a r d => b.encodeTx (relayBody a r .off d)
  | .encRelayMoment a r d => b.encodeTx (relayBody a r .moment d)
  | .encRelayRsv => b.raise .cmdReserved
  | .encIlock a sel => b.encodeTx (ilockBody a (ilockModeOfSel sel))
  | .crcInit => { b with crc := Config.crcSeed }
  | .crcByte x => { b with crc := crcUpdate b.crc x }
  | .rxPop => b.popFifo
  | .rxAbort => b.discardAsm
  | .cntClear => { b with cntFrames := 0, cntCrcerr := 0, cntDrop := 0 }
  | .reserved9 => b.raise .cmdReserved
  | .reservedAB _ => b.raise .cmdReserved
  | .reservedCF _ => b.raise .cmdReserved
  | .rxByte x => b.rxByte p x
  | .tick => b.tick p
  | .wrqRead a _ _ => b.rxByte p a
  | .wrqRelay a _ _ _ _ _ => b.rxByte p a
  | .wrqIlock a _ _ _ => b.rxByte p a
  | .wrsRead a _ _ _ => b.rxByte p a
  | .wrsAck a _ _ _ => b.rxByte p a
  | .wrsOther a _ _ _ _ => b.rxByte p a

/-- The input queue an instruction leaves: a wire frame puts the bytes after its first before everything else, any
other instruction leaves the queue. -/
def instrInputs (i : Instr) (q : List Input) : List Input :=
  match i.channel with
  | .command => q
  | .lineByte => q
  | .timeBase => q
  | .request => (encode i).tail.map lineCycle ++ q
  | .response => (encode i).tail.map lineCycle ++ q

/-- The state an instruction leaves. -/
def instrState (i : Instr) (s : State) : State :=
  (s.withBlock (instrBlock s.params i s.block)).withInputs (instrInputs i s.inputs)

@[simp] theorem instrState_params (i : Instr) (s : State) : (instrState i s).params = s.params := rfl
@[simp] theorem instrState_block (i : Instr) (s : State) :
    (instrState i s).block = instrBlock s.params i s.block := rfl
@[simp] theorem instrState_inputs (i : Instr) (s : State) :
    (instrState i s).inputs = instrInputs i s.inputs := rfl
@[simp] theorem instrState_rdata (i : Instr) (s : State) : (instrState i s).rdata = s.rdata := rfl

/-- Every instruction answers a next state that differs in the block and, for a wire frame, in the queue. -/
theorem exec_eq (i : Instr) (s : State) : exec i s = .next (instrState i s) := by
  cases i <;> rfl

/-- A command never touches the input queue. -/
@[simp] theorem instrInputs_decodeCmd (w : Word) (q : List Input) : instrInputs (decodeCmd w) q = q := by
  unfold decodeCmd
  split <;> first | rfl | (unfold decodeRelay; split <;> rfl)

/-- An event that is an instruction never touches the input queue. -/
theorem instrInputs_of_event {e : Event} {i : Instr} (h : eventInstr e = some i) (q : List Input) :
    instrInputs i q = q := by
  cases e with
  | reset a => simp [eventInstr] at h
  | access a =>
    cases a with
    | read off n => simp [eventInstr] at h
    | write off n v =>
      simp only [eventInstr] at h
      split at h
      · cases h; simp
      · cases h
  | rxByte x => cases h; rfl
  | tick => cases h; rfl

/-- The state an event leaves: `stepEvent` seen as a function. -/
def eventState (e : Event) (s : State) : State :=
  match eventInstr e with
  | some i => (s.withRdata none).withBlock (instrBlock s.params i s.block)
  | none => applyEvent e (s.withRdata none)

/-- Every event answers a next state. -/
theorem stepEvent_eq (e : Event) (s : State) : stepEvent e s = .next (eventState e s) := by
  unfold stepEvent eventState
  cases h : eventInstr e with
  | some i => simp [exec_eq, instrState, instrInputs_of_event h]; rfl
  | none => rfl

/-- The state a step leaves: its one event's, or the same with the empty input taken. -/
def stepState (s : State) : State :=
  match nextEvent s.inputs with
  | some e => eventState e (s.withInputs (restInputs s.inputs))
  | none => (s.withInputs (restInputs s.inputs)).withRdata none

/-- A step in a cycle. -/
theorem step_cycle {s : State} {c : Cycle} {q : List Input} (h : s.inputs = .cycle c :: q) :
    step s = .next (stepState s) := by
  simp only [step, h, stepCycle, stepState, nextEvent, restInputs]
  cases hc : cycleEvent c with
  | some e => simp [stepEvent_eq]
  | none => rfl

/-- A wire frame that encodes to the bytes on the line is the `RxByte` of the first of them. -/
theorem exec_frame {i : Instr} (h : i.channel = .request ∨ i.channel = .response) (s : State) :
    exec i s = .next (s.deliver (encode i)) := by
  cases i <;> first | rfl | simp [Instr.channel] at h

/-- Every step answers a next state, that of its one event.
The premise is what DecodedWireFramesKeepEveryByte says of the decoder. -/
theorem step_eq
    (hdec : ∀ (d : Direction) (bs : Frame) (i : Instr),
      decode (directionChannel d) bs = .ok i → encode i = bs ∧ i.channel = directionChannel d)
    (s : State) : step s = .next (stepState s) := by
  cases hq : s.inputs with
  | nil => simp only [step, hq, stepState, nextEvent, restInputs]; rw [← hq]; rfl
  | cons x q =>
    cases x with
    | cycle c => exact step_cycle hq
    | frame d bs =>
      have key : step s = .next (((s.withInputs q).withRdata none).deliver bs) := by
        simp only [step, hq, stepFrame]
        cases hd : decode (directionChannel d) bs with
        | error e => rfl
        | ok i =>
          obtain ⟨rfl, hc⟩ := hdec d bs i hd
          exact exec_frame (by cases d <;> simp_all [directionChannel]) _
      rw [key, stepState]
      cases bs with
      | nil => simp [hq, nextEvent, restInputs]
      | cons x bs => simp only [hq, nextEvent, restInputs]; rfl

/-- The block an event leaves: an instruction's, the reset block, a register write's, or the same. -/
def eventBlock (p : Params) (e : Event) (b : Block) : Block :=
  match eventInstr e with
  | some i => instrBlock p i b
  | none =>
    match e with
    | .reset _ => Block.reset
    | .access (.write off n v) => hostWrite off n v b
    | .access (.read _ _) => b
    | .rxByte x => b.rxByte p x
    | .tick => b.tick p

theorem eventState_block (e : Event) (s : State) :
    (eventState e s).block = eventBlock s.params e s.block := by
  unfold eventState eventBlock
  cases h : eventInstr e with
  | some i => rfl
  | none =>
    cases e with
    | access a => cases a <;> rfl
    | rxByte x => simp [eventInstr] at h
    | tick => simp [eventInstr] at h
    | _ => rfl

@[simp] theorem eventState_params (e : Event) (s : State) : (eventState e s).params = s.params := by
  unfold eventState
  split
  · rfl
  · cases e with
    | access a => cases a <;> rfl
    | _ => rfl

@[simp] theorem eventState_inputs (e : Event) (s : State) : (eventState e s).inputs = s.inputs := by
  unfold eventState
  split
  · rfl
  · cases e with
    | access a => cases a <;> rfl
    | _ => rfl

/-- No event looks at the inputs behind it. -/
@[simp] theorem eventState_withInputs (e : Event) (s : State) (q : List Input) :
    eventState e (s.withInputs q) = (eventState e s).withInputs q := by
  unfold eventState
  split
  · rfl
  · cases e with
    | access a => cases a <;> rfl
    | _ => rfl

/-- No event looks at the read data of the step before. -/
@[simp] theorem eventState_withRdata (e : Event) (s : State) (r : Option Word) :
    eventState e (s.withRdata r) = eventState e s := rfl

/-- A run over events is a run over the states they leave. -/
theorem runEvents_eq (es : List Event) (s : State) :
    runEvents es s = .next (es.foldl (fun s e => eventState e s) s) := by
  induction es generalizing s with
  | nil => rfl
  | cons e es ih => simp [runEvents, stepEvent_eq, ih]

/-- A run over instructions is a run over the states they leave. -/
theorem runInstrs_eq (is : List Instr) (s : State) :
    runInstrs is s = .next (is.foldl (fun s i => instrState i s) s) := by
  induction is generalizing s with
  | nil => rfl
  | cons i is ih => simp [runInstrs, exec_eq, ih]

/-- A run over received bytes changes the block alone. -/
theorem runInstrs_rxByte (bs : Frame) (s : State) :
    runInstrs (bs.map .rxByte) s = .next (s.withBlock (bs.foldl (fun b x => b.rxByte s.params x) s.block)) := by
  induction bs generalizing s with
  | nil => rfl
  | cons x bs ih => simp only [List.map_cons, runInstrs, exec_eq, ih]; rfl

theorem regAt_ctrl {off : Nat} (h : regAt off = some .ctrl) : off = 0x000 := by
  unfold regAt at h; split at h <;> simp_all
theorem regAt_cfg {off : Nat} (h : regAt off = some .cfg) : off = 0x004 := by
  unfold regAt at h; split at h <;> simp_all
theorem regAt_cmd {off : Nat} (h : regAt off = some .cmd) : off = 0x008 := by
  unfold regAt at h; split at h <;> simp_all
theorem regAt_status {off : Nat} (h : regAt off = some .status) : off = 0x00C := by
  unfold regAt at h; split at h <;> simp_all

/-- Only a 32-bit write at 0x008 is a command (R25). -/
theorem isCommandWrite_iff (off n : Nat) : isCommandWrite off n = true ↔ off = 0x008 ∧ n = 4 := by
  constructor
  · intro h
    simp only [isCommandWrite, admitted, Bool.and_eq_true, beq_iff_eq, decide_eq_true_eq] at h
    exact ⟨regAt_cmd h.2, h.1.1.1⟩
  · rintro ⟨rfl, rfl⟩; rfl

/-- A 32-bit write of CTRL, CFG or STATUS is that register's write; every other write that is no command is
ignored (R61, R62, R63). -/
theorem hostWrite_cases (off n : Nat) (v : Word) (b : Block) :
    (off = 0x000 ∧ n = 4 ∧ hostWrite off n v b = b.writeCtrl v) ∨
    (off = 0x004 ∧ n = 4 ∧ hostWrite off n v b = b.writeCfg v) ∨
    (off = 0x00C ∧ n = 4 ∧ hostWrite off n v b = b.clearSticky v) ∨
    ((n = 4 → off ≠ 0x000 ∧ off ≠ 0x004 ∧ off ≠ 0x00C) ∧ hostWrite off n v b = b) := by
  by_cases hn : n = 4
  · subst hn
    by_cases h0 : off = 0x000
    · subst h0; exact .inl ⟨rfl, rfl, rfl⟩
    by_cases h4 : off = 0x004
    · subst h4; exact .inr (.inl ⟨rfl, rfl, rfl⟩)
    by_cases hc : off = 0x00C
    · subst hc; exact .inr (.inr (.inl ⟨rfl, rfl, rfl⟩))
    refine .inr (.inr (.inr ⟨fun _ => ⟨h0, h4, hc⟩, ?_⟩))
    unfold hostWrite
    split
    · cases hr : regAt off with
      | none => rfl
      | some r =>
        cases r with
        | ctrl => exact absurd (regAt_ctrl hr) h0
        | cfg => exact absurd (regAt_cfg hr) h4
        | status => exact absurd (regAt_status hr) hc
        | _ => rfl
    · rfl
  · exact .inr (.inr (.inr ⟨fun h => absurd h hn, by simp [hostWrite, admitted, hn]⟩))

end Sys2Proof.Machine
end

