-- ==== Sys2Proof/Laws/Inv.lean ====
section
/-! SUPPORT. Each shared operation keeps the invariants of R39. -/

namespace Sys2Proof.Machine

variable {p : Params} {b : Block}

/-- The part of R39 that closing a frame relies on: everything but the bound on ASM, which the full frame is
about to leave, and the silence of an idle block. -/
structure Block.ClosableInv (p : Params) (b : Block) : Prop where
  asm : 1 ≤ b.asm.length ∧ b.asm.length ≤ p.maxFrame
  fifo : b.fifo.length ≤ p.rxqDepth ∧ ∀ f ∈ b.fifo, 1 ≤ f.length ∧ f.length ≤ p.maxFrame
  cfg : 1 ≤ b.quiet.toNat ∧ b.incount.toNat ≤ 16
  tx : (b.txlen = 0 ∨ b.txlen = 8) ∧ (b.txlen = 0 → b.txbuf = TxBuf.zero)

/-- Closing a frame of at most MAX_FRAME bytes keeps R39 (R133). -/
theorem closeFrame_inv (hp : p.Legal) (h : b.ClosableInv p) : (b.closeFrame p).Inv p := by
  refine ⟨by simp; omega, by simp, ?_, ?_, by simpa using h.cfg, by simpa using h.tx.1, by simpa using h.tx.2⟩
  · rcases closeFrame_fifo p b with e | ⟨hne, e⟩
    · rw [e]; exact h.fifo.1
    · have := h.fifo.1
      simp [e]; omega
  · rcases closeFrame_fifo p b with e | ⟨_, e⟩
    · rw [e]; exact h.fifo.2
    · intro f hf
      rw [e, List.mem_append, List.mem_singleton] at hf
      rcases hf with hf | rfl
      · exact h.fifo.2 f hf
      · exact h.asm

theorem rxByte_inv (hp : p.Legal) (x : Byte) (h : b.Inv p) : (b.rxByte p x).Inv p := by
  obtain ⟨h1, h2, h3, h4, h5, h6, h7⟩ := h
  rcases rxByte_cases p x b with ⟨_, e⟩ | ⟨_, hl, e⟩ | ⟨_, hl, e⟩ <;> rw [e]
  · exact ⟨h1, h2, h3, h4, h5, h6, h7⟩
  · exact ⟨by simp; omega, by simp, h3, h4, h5, h6, h7⟩
  · exact closeFrame_inv hp ⟨by simp; omega, ⟨h3, h4⟩, h5, h6, h7⟩

theorem tick_inv (hp : p.Legal) (h : b.Inv p) : (b.tick p).Inv p := by
  obtain ⟨h1, h2, h3, h4, h5, h6, h7⟩ := h
  rcases tick_cases p b with ⟨_, e⟩ | ⟨ha, _, e⟩ | ⟨ha, _, e⟩ <;> rw [e]
  · exact ⟨h1, h2, h3, h4, h5, h6, h7⟩
  · exact ⟨h1, fun h0 => absurd (List.length_eq_zero_iff.1 h0) ha, h3, h4, h5, h6, h7⟩
  · have := List.length_pos_iff.2 ha
    exact closeFrame_inv hp ⟨by simp; omega, ⟨h3, h4⟩, h5, h6, h7⟩

theorem raise_inv (e : ErrorEvent) (h : b.Inv p) : (b.raise e).Inv p := by
  cases e <;> exact h

theorem encodeTx_inv (body : Frame) (h : b.Inv p) : (b.encodeTx body).Inv p :=
  ⟨h.1, h.2.1, h.2.2.1, h.2.2.2.1, h.2.2.2.2.1, .inr rfl, fun h0 => absurd h0 (by simp)⟩

theorem popFifo_inv (h : b.Inv p) : b.popFifo.Inv p :=
  ⟨h.1, h.2.1, by have := h.2.2.1; simp; omega, fun f hf => h.2.2.2.1 f (List.mem_of_mem_tail hf),
    h.2.2.2.2⟩

theorem discardAsm_inv (hp : p.Legal) (h : b.Inv p) : b.discardAsm.Inv p :=
  ⟨by simp; omega, by simp, h.2.2⟩

theorem writeCtrl_inv (hp : p.Legal) (v : Word) (h : b.Inv p) : (b.writeCtrl v).Inv p := by
  obtain ⟨h1, h2, h3⟩ := h
  refine ⟨?_, ?_, h3⟩
  · simp only [Block.writeCtrl_asm]; split
    · simp; omega
    · exact h1
  · simp only [Block.writeCtrl_asm, Block.writeCtrl_sil]; split
    · simp
    · exact h2

theorem legalQuiet_pos (q : Half) : 1 ≤ (legalQuiet q).toNat := by
  unfold legalQuiet
  split
  · simp
  · next h =>
    have : q.toNat ≠ 0 := fun e => h (beq_iff_eq.2 (BitVec.eq_of_toNat_eq e))
    omega

theorem legalIncount_le (n : BitVec 5) : (legalIncount n).toNat ≤ 16 := by
  unfold legalIncount; split <;> simp_all

theorem writeCfg_inv (v : Word) (h : b.Inv p) : (b.writeCfg v).Inv p :=
  ⟨h.1, h.2.1, h.2.2.1, h.2.2.2.1, ⟨legalQuiet_pos _, legalIncount_le _⟩, h.2.2.2.2.2⟩

end Sys2Proof.Machine
end

