-- ==== Sys2Proof/Laws/PerInstr.lean ====
section
/-! SUPPORT. The length of every instruction's encoding, one lemma per constructor: 4 bytes for a command (R80), 1 for a received byte, 0 for a tick, 8 for a request (R89, R90, R91), 4 to 256 for a received frame (R8, R88). -/

namespace Sys2Proof.Laws

/-- The lengths a channel admits. -/
def channelLength (c : Channel) (n : Nat) : Prop :=
  match c with
  | .command => n = 4
  | .lineByte => n = 1
  | .timeBase => n = 0
  | .request => n = 8
  | .response => 4 ≤ n ∧ n ≤ Config.longestFrame

/-- A well-formed instruction's encoding has a length its channel admits. -/
def EncodeLength.Statement (i : Instr) : Prop :=
  i.wf = true → channelLength i.channel (encode i).length

theorem EncodeLength.nop : EncodeLength.Statement (.nop) := fun _ => rfl
theorem EncodeLength.encRead (a : Byte) : EncodeLength.Statement (.encRead a) := fun _ => rfl
theorem EncodeLength.encRelayOn (a : Byte) (r : Byte) (d : Byte) : EncodeLength.Statement (.encRelayOn a r d) := fun _ => rfl
theorem EncodeLength.encRelayOff (a : Byte) (r : Byte) (d : Byte) : EncodeLength.Statement (.encRelayOff a r d) := fun _ => rfl
theorem EncodeLength.encRelayMoment (a : Byte) (r : Byte) (d : Byte) : EncodeLength.Statement (.encRelayMoment a r d) := fun _ => rfl
theorem EncodeLength.encRelayRsv : EncodeLength.Statement (.encRelayRsv) := fun _ => rfl
theorem EncodeLength.encIlock (a : Byte) (sel : BitVec 3) : EncodeLength.Statement (.encIlock a sel) := fun _ => rfl
theorem EncodeLength.crcInit : EncodeLength.Statement (.crcInit) := fun _ => rfl
theorem EncodeLength.crcByte (x : Byte) : EncodeLength.Statement (.crcByte x) := fun _ => rfl
theorem EncodeLength.rxPop : EncodeLength.Statement (.rxPop) := fun _ => rfl
theorem EncodeLength.rxAbort : EncodeLength.Statement (.rxAbort) := fun _ => rfl
theorem EncodeLength.cntClear : EncodeLength.Statement (.cntClear) := fun _ => rfl
theorem EncodeLength.reserved9 : EncodeLength.Statement (.reserved9) := fun _ => rfl
theorem EncodeLength.reservedAB (k : BitVec 1) : EncodeLength.Statement (.reservedAB k) := fun _ => rfl
theorem EncodeLength.reservedCF (k : BitVec 2) : EncodeLength.Statement (.reservedCF k) := fun _ => rfl
theorem EncodeLength.rxByte (x : Byte) : EncodeLength.Statement (.rxByte x) := fun _ => rfl
theorem EncodeLength.tick : EncodeLength.Statement (.tick) := fun _ => rfl
theorem EncodeLength.wrqRead (a : Byte) (cl : Byte) (ch : Byte) : EncodeLength.Statement (.wrqRead a cl ch) := fun _ => rfl
theorem EncodeLength.wrqRelay (a : Byte) (r : Byte) (m : RelayMode) (d : Byte) (cl : Byte) (ch : Byte) : EncodeLength.Statement (.wrqRelay a r m d cl ch) := fun _ => rfl
theorem EncodeLength.wrqIlock (a : Byte) (m : IlockMode) (cl : Byte) (ch : Byte) : EncodeLength.Statement (.wrqIlock a m cl ch) := fun _ => rfl
theorem EncodeLength.wrsRead (a : Byte) (p : Frame) (cl : Byte) (ch : Byte) : EncodeLength.Statement (.wrsRead a p cl ch) := by
  intro h
  simp [Instr.wf, payloadFits, Config.longestFrame] at h
  simp [channelLength, Instr.channel, encode, Machine.wireFrame, Config.longestFrame]
  omega

theorem EncodeLength.wrsAck (a : Byte) (p : Frame) (cl : Byte) (ch : Byte) : EncodeLength.Statement (.wrsAck a p cl ch) := by
  intro h
  simp [Instr.wf, payloadFits, Config.longestFrame] at h
  simp [channelLength, Instr.channel, encode, Machine.wireFrame, Config.longestFrame]
  omega

theorem EncodeLength.wrsOther (a : Byte) (f : Byte) (p : Frame) (cl : Byte) (ch : Byte) : EncodeLength.Statement (.wrsOther a f p cl ch) := by
  intro h
  simp [Instr.wf, payloadFits, Config.longestFrame] at h
  simp [channelLength, Instr.channel, encode, Machine.wireFrame, Config.longestFrame]
  omega

/-- All the cases together. -/
theorem encode_length (i : Instr) (h : i.wf = true) : channelLength i.channel (encode i).length := by
  revert h
  cases i with
  | nop => exact EncodeLength.nop
  | encRead a => exact EncodeLength.encRead a
  | encRelayOn a r d => exact EncodeLength.encRelayOn a r d
  | encRelayOff a r d => exact EncodeLength.encRelayOff a r d
  | encRelayMoment a r d => exact EncodeLength.encRelayMoment a r d
  | encRelayRsv => exact EncodeLength.encRelayRsv
  | encIlock a sel => exact EncodeLength.encIlock a sel
  | crcInit => exact EncodeLength.crcInit
  | crcByte x => exact EncodeLength.crcByte x
  | rxPop => exact EncodeLength.rxPop
  | rxAbort => exact EncodeLength.rxAbort
  | cntClear => exact EncodeLength.cntClear
  | reserved9 => exact EncodeLength.reserved9
  | reservedAB k => exact EncodeLength.reservedAB k
  | reservedCF k => exact EncodeLength.reservedCF k
  | rxByte x => exact EncodeLength.rxByte x
  | tick => exact EncodeLength.tick
  | wrqRead a cl ch => exact EncodeLength.wrqRead a cl ch
  | wrqRelay a r m d cl ch => exact EncodeLength.wrqRelay a r m d cl ch
  | wrqIlock a m cl ch => exact EncodeLength.wrqIlock a m cl ch
  | wrsRead a p cl ch => exact EncodeLength.wrsRead a p cl ch
  | wrsAck a p cl ch => exact EncodeLength.wrsAck a p cl ch
  | wrsOther a f p cl ch => exact EncodeLength.wrsOther a f p cl ch

end Sys2Proof.Laws
end

