-- ==== Sys2Proof/Tests/Slice0.lean ====
section
/-! SUPPORT. The model's own tests: ill-formed terms, words written out from the spec, one or two steps per instruction with the values of 95_test_vectors.md, and for every obligation with hypotheses the states and operands that meet them. -/

namespace Sys2Proof.Tests

open Sys2Proof.Machine

/- One kernel check at a time: the many small kernel checks of this file would each ask for a thread. -/
set_option Elab.async false

/-! ## Helpers -/

/-- The next state of a step, if it has one. -/
def nextOf (o : StepOutcome) : Option State :=
  match o with
  | .next t => some t
  | .fault _ => none
  | .refused _ => none

/-- The block after an instruction. -/
def blockAfter (i : Instr) (s : State) : Option Block := (nextOf (exec i s)).map State.block

/-- What a 32-bit read at an offset answers after an instruction. -/
def readAfter (i : Instr) (s : State) (off : Nat) : Option Word :=
  (nextOf (exec i s)).map fun t => hostRead t.params t.block off 4

/-- The block and the read data after one step of a machine that has one cycle before it. -/
def cycleStep (s : State) (c : Cycle) : Option (Block × Option Word) :=
  (nextOf (step (s.withInputs [.cycle c]))).map fun t => (t.block, t.rdata)

/-- A machine with the recommended parameters and this block. -/
def machine (b : Block) : State := State.reset.withBlock b

/-- The smallest legal machine: MAX_FRAME 4, RXQ_DEPTH 1. -/
def smallest (b : Block) : State :=
  (State.resetWith { maxFrame := 4, rxqDepth := 1, tickPeriod := 1000, base := 0 }).withBlock b

/-- The largest legal machine: MAX_FRAME 256, RXQ_DEPTH 255. -/
def largest (b : Block) : State :=
  (State.resetWith { maxFrame := 256, rxqDepth := 255, tickPeriod := 1, base := 0x40000000 }).withBlock b

/-- EN is 1 and QUIET 3. -/
def enabled : Block := { Block.reset with en := true, quiet := 3 }

/-- The acknowledgement of V-DEC-5. -/
def ack : Frame := [0x01, 0x06, 0x00, 0x03, 0x01, 0x00, 0x78, 0x5A]

/-- The four-register response of V-DEC-2. -/
def fourRegs : Frame := [0x01, 0x03, 0x08, 0x00, 0x01, 0x00, 0x01, 0x00, 0x00, 0x00, 0x01, 0x79, 0x17]

/-- A block with this frame at the head. -/
def holding (h : Frame) : Block := { enabled with fifo := [h] }

/-! ## Well-formedness: an ill-formed term for each check -/

theorem test_wf_refuses_wrqRead_of_wrong_crc : Instr.wf (.wrqRead 0x01 0x15 0xE6) = false := by decide +kernel
theorem test_wf_refuses_swapped_crc : Instr.wf (.wrqRead 0x01 0xE7 0x15) = false := by decide +kernel
theorem test_wf_refuses_wrqRelay_of_wrong_crc :
    Instr.wf (.wrqRelay 0x01 0x03 .on 0x00 0x78 0x5B) = false := by decide +kernel
theorem test_wf_refuses_wrqIlock_of_wrong_crc :
    Instr.wf (.wrqIlock 0x01 .momentary 0x18 0x3A) = false := by decide +kernel
theorem test_wf_refuses_wrsRead_too_long :
    Instr.wf (.wrsRead 0x01 (List.replicate 253 0) 0 0) = false := by decide +kernel
theorem test_wf_refuses_wrsAck_too_long :
    Instr.wf (.wrsAck 0x01 (List.replicate 253 0) 0 0) = false := by decide +kernel
theorem test_wf_refuses_wrsOther_too_long :
    Instr.wf (.wrsOther 0x01 0x83 (List.replicate 253 0) 0 0) = false := by decide +kernel
theorem test_wf_refuses_wrsOther_of_read_function : Instr.wf (.wrsOther 0x01 0x03 [] 0x40 0x21) = false := by decide
theorem test_wf_refuses_wrsOther_of_write_function : Instr.wf (.wrsOther 0x01 0x06 [] 0 0) = false := by decide
theorem test_wf_takes_the_longest_frame :
    Instr.wf (.wrsRead 0x01 (List.replicate 252 0) 0 0) = true := by decide +kernel

/-! ## Decoding: words written out from R81 to R94 and the vectors of L2.3 and L2.5 -/

theorem test_decode_nop : decodeCmd 0xFFFFFFF0 = .nop := by decide
theorem test_decode_encRead : decodeCmd 0xFFFFFFF1 = .encRead 0xFF := by decide
theorem test_decode_encRelayOn : decodeCmd 0x00030102 = .encRelayOn 0x01 0x03 0x00 := by decide
theorem test_decode_encRelayOff : decodeCmd 0x00000112 = .encRelayOff 0x01 0x00 0x00 := by decide
theorem test_decode_encRelayMoment : decodeCmd 0x0A010122 = .encRelayMoment 0x01 0x01 0x0A := by decide
theorem test_decode_encRelay_ignores_sub_high : decodeCmd 0x000301C2 = .encRelayOn 0x01 0x03 0x00 := by decide
theorem test_decode_encRelayRsv : decodeCmd 0x00030132 = .encRelayRsv := by decide
theorem test_decode_encIlock : decodeCmd 0x000001B3 = .encIlock 0x01 3 := by decide
theorem test_decode_encIlock_unnamed : decodeCmd 0x00000173 = .encIlock 0x01 7 := by decide
theorem test_decode_crcInit : decodeCmd 0x00000004 = .crcInit := by decide
theorem test_decode_crcByte : decodeCmd 0xFFFFFF05 = .crcByte 0xFF := by decide
theorem test_decode_rxPop : decodeCmd 0x00000006 = .rxPop := by decide
theorem test_decode_rxAbort : decodeCmd 0x00000007 = .rxAbort := by decide
theorem test_decode_cntClear : decodeCmd 0x00000008 = .cntClear := by decide
theorem test_decode_reserved9 : decodeCmd 0xFFFFFFF9 = .reserved9 := by decide
theorem test_decode_reservedAB : decodeCmd 0x0000000B = .reservedAB 1 := by decide
theorem test_decode_reservedCF : decodeCmd 0x0000000E = .reservedCF 2 := by decide
theorem test_decode_command_bytes : decode .command [0x02, 0x01, 0x03, 0x00] = .ok (.encRelayOn 0x01 0x03 0x00) := by
  decide
theorem test_decode_rxByte : decode .lineByte [0xA5] = .ok (.rxByte 0xA5) := by decide
theorem test_decode_tick : decode .timeBase [] = .ok .tick := by decide
theorem test_decode_wrqRead :
    decode .request [0x01, 0x03, 0x00, 0x81, 0x00, 0x0C, 0x15, 0xE7] = .ok (.wrqRead 0x01 0x15 0xE7) := by decide
theorem test_decode_wrqRelay_of_index_FD :
    decode .request [0x01, 0x06, 0x00, 0xFD, 0x01, 0x00, 0x19, 0xAA]
      = .ok (.wrqRelay 0x01 0xFD .on 0x00 0x19 0xAA) := by decide
theorem test_decode_wrqIlock :
    decode .request [0x01, 0x06, 0x00, 0xFD, 0x00, 0x03, 0x58, 0x3B]
      = .ok (.wrqIlock 0x01 .momentary 0x58 0x3B) := by decide
theorem test_decode_request_rejects_mode_byte :
    decode .request [0x01, 0x06, 0x00, 0x03, 0x04, 0x00, 0x00, 0x00] = .error .notARequest := by decide
theorem test_decode_wrsRead_loopback :
    decode .response [0x01, 0x03, 0x00, 0x81, 0x00, 0x0C, 0x15, 0xE7]
      = .ok (.wrsRead 0x01 [0x00, 0x81, 0x00, 0x0C] 0x15 0xE7) := by decide
theorem test_decode_wrsAck :
    decode .response [0x01, 0x06, 0x00, 0x03, 0xA1, 0xD8] = .ok (.wrsAck 0x01 [0x00, 0x03] 0xA1 0xD8) := by decide
theorem test_decode_wrsOther :
    decode .response [0x01, 0x83, 0x02, 0xC0, 0xF1] = .ok (.wrsOther 0x01 0x83 [0x02] 0xC0 0xF1) := by decide
theorem test_decode_response_rejects_runt : decode .response [0x01, 0x7E, 0x80] = .error (.runt 3) := by decide
theorem test_decodeTableWord_command : decodeTableWord 32 0x00030102 = some (.encRelayOn 0x01 0x03 0x00) := by decide
theorem test_decodeTableWord_wire :
    decodeTableWord 64 0xE7150C0081000301 = some (.wrqRead 0x01 0x15 0xE7) := by decide
theorem test_decodeTableWord_short_row : decodeTableWord 16 0x8301 = some (.wrsOther 0x01 0x83 [] 0 0) := by decide

/-! ## Fetching: `withFetchWord` and one step -/

theorem test_fetch_command :
    (nextOf (step (State.reset.withFetchWord 32 0x00000105))).map (fun t => t.block.crc) = some 0x807E := by
  decide +kernel
theorem test_fetch_wire :
    (nextOf (step ((machine enabled).withFetchWord 64 0x5A78000103000601))).map (fun t => (t.block.asm, t.inputs))
      = some ([0x01], ack.tail.map lineCycle) := by decide +kernel

/-! ## One step per instruction: the values of 95_test_vectors.md -/

/-- V-CRC-8. -/
theorem test_crc_check_value :
    crc16 [0x31, 0x32, 0x33, 0x34, 0x35, 0x36, 0x37, 0x38, 0x39] = 0x4B37 := by decide +kernel
/-- V-CRC-13 and V-CRC-15. -/
theorem test_crc_verify_corners :
    crcVerify [0xFF, 0xFF] = true ∧ crcVerify [0x01] = false ∧ crcVerify [] = false ∧
      crc16 [0x01, 0x06, 0x00, 0x03, 0x00, 0x00, 0x78, 0x5A] = 0xFC01 := by decide +kernel
/-- V-ENC-18. -/
theorem test_nop : blockAfter .nop (machine (holding ack)) = some (holding ack) := by decide +kernel
/-- V-ENC-2. -/
theorem test_encRead_tx0 : readAfter (.encRead 0x01) State.reset 0x018 = some 0x81000301 := by decide +kernel
theorem test_encRead_tx1 : readAfter (.encRead 0x01) State.reset 0x01C = some 0xE7150C00 := by decide +kernel
/-- V-ENC-8. -/
theorem test_encRelayOn_tx0 : readAfter (.encRelayOn 2 0xFF 0xFF) State.reset 0x018 = some 0xFF000602 := by
  decide +kernel
theorem test_encRelayOn_tx1 : readAfter (.encRelayOn 2 0xFF 0xFF) State.reset 0x01C = some 0x19F8FF01 := by
  decide +kernel
/-- V-ENC-6. -/
theorem test_encRelayOff_tx1 : readAfter (.encRelayOff 1 0 0) State.reset 0x01C = some 0xAA880002 := by
  decide +kernel
/-- V-ENC-7. -/
theorem test_encRelayMoment_tx0 : readAfter (.encRelayMoment 1 1 0x0A) State.reset 0x018 = some 0x01000601 := by
  decide +kernel
theorem test_encRelayMoment_tx1 : readAfter (.encRelayMoment 1 1 0x0A) State.reset 0x01C = some 0x5D5B0A05 := by
  decide +kernel
/-- V-ENC-17. -/
theorem test_encRelayRsv : blockAfter .encRelayRsv State.reset = some { Block.reset with cmderr := true } := by
  decide +kernel
/-- V-ENC-14 and V-ENC-15. -/
theorem test_encIlock_variant2 : readAfter (.encIlock 1 4) State.reset 0x01C = some 0xF9190400 := by decide +kernel
theorem test_encIlock_unnamed : readAfter (.encIlock 1 5) State.reset 0x01C = some 0x3A180000 := by decide +kernel
/-- R117's worked example. -/
theorem test_crcInit : readAfter .crcInit (machine { enabled with crc := 0x1234 }) 0x010 = some 0x0000FFFF := by
  decide +kernel
/-- V-HCRC-3 and V-HCRC-8. -/
theorem test_crcByte_zero : readAfter (.crcByte 0x00) State.reset 0x010 = some 0x000040BF := by decide +kernel
theorem test_crcByte : readAfter (.crcByte 0xFF) (machine { enabled with crc := 0xE715 }) 0x010 = some 0x00008F66 := by
  decide +kernel
/-- R198's worked example, and an empty FIFO. -/
theorem test_rxPop :
    blockAfter .rxPop (machine { enabled with fifo := [ack, fourRegs] }) = some (holding fourRegs) := by decide +kernel
theorem test_rxPop_empty : blockAfter .rxPop (machine enabled) = some enabled := by decide +kernel
/-- R140's worked example. -/
theorem test_rxAbort :
    readAfter .rxAbort (machine { enabled with asm := [0x01, 0x03], sil := 1 }) 0x00C = some 0 := by decide +kernel
/-- V-EXC-4: the sticky bits stay. -/
theorem test_cntClear :
    blockAfter .cntClear
        (machine { enabled with cntFrames := 5, cntCrcerr := 2, cntDrop := 1, crcerr := true, droperr := true })
      = some { enabled with crcerr := true, droperr := true } := by decide +kernel
/-- V-EXC-1. -/
theorem test_reserved9 : readAfter .reserved9 State.reset 0x00C = some 0x00000010 := by decide +kernel
theorem test_reservedAB : readAfter (.reservedAB 0) State.reset 0x00C = some 0x00000010 := by decide +kernel
theorem test_reservedCF : readAfter (.reservedCF 3) State.reset 0x00C = some 0x00000010 := by decide +kernel
/-- R131's worked example, and the capacity close of V-DLM-3. -/
theorem test_rxByte : readAfter (.rxByte 0x01) (machine enabled) 0x00C = some 0x00010004 := by decide +kernel
theorem test_rxByte_at_capacity :
    blockAfter (.rxByte 4) (smallest { enabled with asm := [1, 2, 3], sil := 1 })
      = some { enabled with fifo := [[1, 2, 3, 4]], crcerr := true, cntFrames := 1, cntCrcerr := 1 } := by
  decide +kernel
/-- R132's worked example: the third tick closes. -/
theorem test_tick_closes :
    blockAfter .tick (machine { enabled with asm := ack, sil := 2 })
      = some { enabled with fifo := [ack], cntFrames := 1 } := by decide +kernel
/-- V-EXC-6 and V-EXC-3: two events in one close, and a saturated counter. -/
theorem test_tick_drops :
    blockAfter .tick (smallest { enabled with asm := [1], sil := 2, fifo := [[7]], cntFrames := 0xFFFF })
      = some { enabled with
          fifo := [[7]], crcerr := true, droperr := true, cntFrames := 0xFFFF, cntCrcerr := 1, cntDrop := 1 } := by
  decide +kernel
/-- A wire frame's own step takes its first byte (R131's worked example) and leaves the rest on the line. -/
theorem test_wrqRead :
    (nextOf (exec (.wrqRead 0x01 0x15 0xE7) (machine enabled))).map (fun t => (t.block.asm, t.inputs))
      = some ([0x01], [0x03, 0x00, 0x81, 0x00, 0x0C, 0x15, 0xE7].map lineCycle) := by decide +kernel
theorem test_wrqRelay :
    (nextOf (exec (.wrqRelay 0x01 0x03 .on 0x00 0x78 0x5A) (machine enabled))).map (fun t => t.inputs)
      = some (ack.tail.map lineCycle) := by decide +kernel
theorem test_wrqIlock :
    (nextOf (exec (.wrqIlock 0x01 .momentary 0x58 0x3B) (machine enabled))).map (fun t => t.inputs)
      = some ([0x06, 0x00, 0xFD, 0x00, 0x03, 0x58, 0x3B].map lineCycle) := by decide +kernel
theorem test_wrsRead :
    readAfter (.wrsRead 0x01 [0x08, 0x00, 0x01, 0x00, 0x01, 0x00, 0x00, 0x00, 0x01] 0x79 0x17) (machine enabled) 0x00C
      = some 0x00010004 := by decide +kernel
theorem test_wrsAck_while_disabled :
    blockAfter (.wrsAck 0x01 [0x00, 0x03] 0xA1 0xD8) State.reset = some Block.reset := by decide +kernel
theorem test_wrsOther_at_capacity :
    blockAfter (.wrsOther 0x04 0x83 [0x02] 0xC0 0xF1) (smallest { enabled with asm := [1, 2, 3], sil := 1 })
      = some { enabled with fifo := [[1, 2, 3, 4]], crcerr := true, cntFrames := 1, cntCrcerr := 1 } := by
  decide +kernel

/-! ## Registers: V-DEC, V-MEM -/

/-- V-DEC-2. -/
theorem test_rxinfo_read : hostRead Params.recommended (holding fourRegs) 0x020 4 = 0x0301160D := by decide +kernel
theorem test_rxread : hostRead Params.recommended (holding fourRegs) 0x02C 4 = 0x000F0408 := by decide +kernel
theorem test_rxval0 : hostRead Params.recommended (holding fourRegs) 0x030 4 = 0x01000101 := by decide +kernel
/-- V-DEC-5. -/
theorem test_rxinfo_ack : hostRead Params.recommended (holding ack) 0x020 4 = 0x06012608 := by decide +kernel
theorem test_rxcrc_ack : hostRead Params.recommended (holding ack) 0x024 4 = 0x5A785A78 := by decide +kernel
theorem test_rxack : hostRead Params.recommended (holding ack) 0x028 4 = 0x01000003 := by decide +kernel
/-- V-DEC-7b. -/
theorem test_rxinfo_runt : hostRead Params.recommended (holding [0xFF, 0xFF]) 0x020 4 = 0xFFFF0A02 := by decide +kernel
/-- V-DEC-9. -/
theorem test_rxinfo_bcmis :
    hostRead Params.recommended (holding [0x01, 0x03, 0x00, 0x81, 0x00, 0x0C, 0x15, 0xE7]) 0x020 4 = 0x03015608 := by
  decide +kernel
/-- The RXDATA window over the last bytes of V-DEC-2, and past them. -/
theorem test_rxdata :
    hostRead Params.recommended (holding fourRegs) 0x10C 4 = 0x00000017 ∧
      hostRead Params.recommended (holding fourRegs) 0x1FC 4 = 0 := by decide +kernel
/-- V-MEM-1 to V-MEM-4. -/
theorem test_reads_not_admitted :
    hostRead Params.recommended (holding ack) 0x012 4 = 0 ∧ hostRead Params.recommended (holding ack) 0x0FC 4 = 0 ∧
      hostRead Params.recommended (holding ack) 0x200 4 = 0 := by decide +kernel
/-- V-DLM-5: QUIET 0 becomes 1 and INCOUNT 31 becomes 16. -/
theorem test_write_cfg :
    cycleStep State.reset { host := some (.write 0x004 4 0x001F0000) }
      = some ({ Block.reset with quiet := 1, incount := 16 }, none) := by decide +kernel
/-- V-MEM-7. -/
theorem test_write_ctrl :
    cycleStep State.reset { host := some (.write 0x000 4 0xFFFFFFFF) }
      = some ({ Block.reset with en := true, ieRx := true, ieErr := true, dropbad := true }, none) := by decide +kernel
/-- V-EXC-2. -/
theorem test_write_status :
    cycleStep (machine { enabled with cmderr := true, droperr := true, crcerr := true })
        { host := some (.write 0x00C 4 0x00000020) }
      = some ({ enabled with cmderr := true, crcerr := true }, none) := by decide +kernel
/-- V-ORD-6: the read comes before the tick of its cycle. -/
theorem test_read_before_tick :
    cycleStep (machine { enabled with quiet := 1, asm := [1] }) { host := some (.read 0x00C 4), tick := true }
      = some ({ enabled with quiet := 1, asm := [1] }, some 0x00010004) := by decide +kernel
/-- V-ORD-5: reset overrides the write and the byte of its cycle. -/
theorem test_reset_overrides :
    cycleStep (machine (holding ack)) { reset := true, host := some (.write 0x000 4 1), rx := some 1 }
      = some (Block.reset, none) := by decide +kernel

/-! ## Witnesses: states and operands that meet the hypotheses of each obligation that has some -/

/-- A frame waits in the FIFO, another is being assembled, an error is recorded. -/
def busy : Block :=
  { enabled with asm := [0x01, 0x03], sil := 1, fifo := [ack, fourRegs], droperr := true, cntFrames := 7 }

/-- `busy` at a CMD write of ENC_READ 0x01, then a tick and a byte. -/
def busyCycle : Cycle := { host := some (.write 0x008 4 0x00000101), tick := true, rx := some 0x55 }

/-- A disabled block with everything else set. -/
def resting : Block :=
  { Block.reset with
    dropbad := true, fifo := [ack], cmderr := true, droperr := true, crcerr := true, crc := 0x1234, txlen := 8 }

theorem witness_UnnamedCommandBitsAreIgnored_read :
    let w : Word := 0xFFFFFFF1
    let w' : Word := 0x0000FF01
    w ≠ w' ∧ cmdOp w = cmdOp w' ∧
      (cmdOp w = 0x1 ∨ cmdOp w = 0x3 ∨ cmdOp w = 0x5 → cmdF0 w = cmdF0 w') ∧
      (cmdOp w = 0x2 → cmdModeSel w = cmdModeSel w') ∧
      (cmdOp w = 0x2 → cmdModeSel w ≠ 3 → cmdF0 w = cmdF0 w' ∧ cmdF1 w = cmdF1 w' ∧ cmdF2 w = cmdF2 w') ∧
      (cmdOp w = 0x3 → cmdModeSel3 w = cmdModeSel3 w') := by decide
theorem witness_UnnamedCommandBitsAreIgnored_relay :
    let w : Word := 0x00030102
    let w' : Word := 0x000301C2
    w ≠ w' ∧ cmdOp w = cmdOp w' ∧
      (cmdOp w = 0x1 ∨ cmdOp w = 0x3 ∨ cmdOp w = 0x5 → cmdF0 w = cmdF0 w') ∧
      (cmdOp w = 0x2 → cmdModeSel w = cmdModeSel w') ∧
      (cmdOp w = 0x2 → cmdModeSel w ≠ 3 → cmdF0 w = cmdF0 w' ∧ cmdF1 w = cmdF1 w' ∧ cmdF2 w = cmdF2 w') ∧
      (cmdOp w = 0x3 → cmdModeSel3 w = cmdModeSel3 w') := by decide
theorem witness_UnnamedCommandBitsAreIgnored_reserved_relay :
    let w : Word := 0x00030132
    let w' : Word := 0xFFFFFFF2
    w ≠ w' ∧ cmdOp w = cmdOp w' ∧
      (cmdOp w = 0x1 ∨ cmdOp w = 0x3 ∨ cmdOp w = 0x5 → cmdF0 w = cmdF0 w') ∧
      (cmdOp w = 0x2 → cmdModeSel w = cmdModeSel w') ∧
      (cmdOp w = 0x2 → cmdModeSel w ≠ 3 → cmdF0 w = cmdF0 w' ∧ cmdF1 w = cmdF1 w' ∧ cmdF2 w = cmdF2 w') ∧
      (cmdOp w = 0x3 → cmdModeSel3 w = cmdModeSel3 w') := by decide
theorem witness_UnnamedCommandBitsAreIgnored_ilock :
    let w : Word := 0x000001B3
    let w' : Word := 0xFFFF0133
    w ≠ w' ∧ cmdOp w = cmdOp w' ∧
      (cmdOp w = 0x1 ∨ cmdOp w = 0x3 ∨ cmdOp w = 0x5 → cmdF0 w = cmdF0 w') ∧
      (cmdOp w = 0x2 → cmdModeSel w = cmdModeSel w') ∧
      (cmdOp w = 0x2 → cmdModeSel w ≠ 3 → cmdF0 w = cmdF0 w' ∧ cmdF1 w = cmdF1 w' ∧ cmdF2 w = cmdF2 w') ∧
      (cmdOp w = 0x3 → cmdModeSel3 w = cmdModeSel3 w') := by decide

/-- A word of each OP and each relay selector: the hypotheses of the encoding clauses of NopHasNoEffect,
EncReadFillsTheTransmitBuffer, EncRelayFillsTheTransmitBuffer, EncIlockFillsTheTransmitBuffer,
ReservedCommandsOnlySetCmderr, HostRunsTheCrcOnItsBytes, RxAbortDiscardsTheFrame, OnlyPopAndResetRemoveEntries
and CounterRegistersShowAndClearTheCounters. -/
theorem witness_encoding_clauses :
    cmdOp 0xFFFFFFF0 = 0x0 ∧ cmdOp 0xFFFFFFF1 = 0x1 ∧ cmdOp 0x00030102 = 0x2 ∧ cmdModeSel 0x00030102 = 0 ∧
      cmdModeSel 0x000301D2 = 1 ∧ cmdModeSel 0x000301E2 = 2 ∧ cmdModeSel 0xFFFFFFF2 = 3 ∧ cmdOp 0x000001B3 = 0x3 ∧
      cmdOp 0xFFFFFFF4 = 0x4 ∧ cmdOp 0xFFFFFF05 = 0x5 ∧ cmdOp 0xFFFFFFF6 = 0x6 ∧ cmdOp 0xFFFFFFF7 = 0x7 ∧
      cmdOp 0xFFFFFFF8 = 0x8 ∧ cmdOp 0xFFFFFFF9 = 0x9 ∧ (cmdOp 0xFFFFFFFF).toNat = 0xF := by decide

/-- A pop or a counter clear in the cycle of a closing tick. -/
theorem witness_pop_and_clear_before_tick :
    let c (w : Word) : Cycle := { host := some (.write 0x008 4 w), tick := true }
    cmdOp 0x00000006 = 0x6 ∧ ((machine busy).withInputs [.cycle (c 0x00000006)]).inputs = .cycle (c 0x00000006) :: [] ∧
      cmdOp 0x00000008 = 0x8 ∧
      ((machine busy).withInputs [.cycle (c 0x00000008)]).inputs = .cycle (c 0x00000008) :: [] := by decide

theorem witness_RxAbortDiscardsTheFrame : (smallest busy).params.Legal ∧ (smallest busy).block.en = true := by decide

theorem witness_DecodeOfEncodeIsTheInstruction :
    Instr.wf (.encIlock 0xFF 7) = true ∧ Instr.wf (.wrqRead 0x01 0x15 0xE7) = true ∧
      Instr.wf (.wrqRelay 0x01 0xFD .on 0x00 0x19 0xAA) = true ∧
      Instr.wf (.wrqIlock 0x01 .momentary 0x58 0x3B) = true ∧
      Instr.wf (.wrsRead 0x01 [] 0x40 0x21) = true ∧ Instr.wf (.wrsOther 0x01 0x83 [0x02] 0xC0 0xF1) = true ∧
      Instr.wf (.wrsAck 0x01 (List.replicate 252 0xFF) 0 0) = true := by decide +kernel

theorem witness_DecodedWireFramesKeepEveryByte :
    decode (directionChannel .request) ack = .ok (.wrqRelay 0x01 0x03 .on 0x00 0x78 0x5A) ∧
      decode (directionChannel .response) ack = .ok (.wrsAck 0x01 [0x00, 0x03, 0x01, 0x00] 0x78 0x5A) ∧
      decode (directionChannel .response) [0x01, 0x03, 0x40, 0x21] = .ok (.wrsRead 0x01 [] 0x40 0x21) := by decide

theorem witness_StepRunsTheDecodedInstruction :
    (let s := (machine busy).withInputs [.cycle busyCycle];
      s.inputs = .cycle busyCycle :: [] ∧ busyCycle.reset = false ∧
        busyCycle.host = some (.write 0x008 4 0x00000101) ∧
        decode .command (leBytes 4 (0x00000101 : Word).toNat) = .ok (.encRead 0x01)) ∧
    (let c : Cycle := { tick := true, rx := some 0x55 };
      ((machine busy).withInputs [.cycle c]).inputs = .cycle c :: [] ∧ c.reset = false ∧ c.host = none ∧
        c.tick = true) ∧
    (let c : Cycle := { rx := some 0x55 };
      ((machine busy).withInputs [.cycle c]).inputs = .cycle c :: [] ∧ c.reset = false ∧ c.host = none ∧
        c.tick = false ∧ c.rx = some 0x55) ∧
    (((machine busy).withInputs [.frame .request ack]).inputs = .frame .request ack :: [] ∧
      decode (directionChannel .request) ack = .ok (.wrqRelay 0x01 0x03 .on 0x00 0x78 0x5A)) := by decide

theorem witness_CycleEventsRunInTheFixedOrder :
    (((machine busy).withInputs [.cycle busyCycle]).inputs = .cycle busyCycle :: [] ∧ busyCycle.reset = false ∧
      cycleEvents busyCycle ≠ []) ∧
    (let c : Cycle := { busyCycle with reset := true };
      ((machine busy).withInputs [.cycle c]).inputs = .cycle c :: [] ∧ c.reset = true) := by decide

theorem witness_NothingHappensWithoutAnEvent :
    (machine busy).inputs = [] ∧ nextEvent (machine busy).inputs = none ∧
      ((machine busy).withInputs [.cycle ⟨false, none, false, none⟩]).inputs = .cycle {} :: [] ∧
      nextEvent ((machine busy).withInputs [.cycle busyCycle]).inputs = some (.access (.write 0x008 4 0x00000101)) ∧
      ((machine busy).withInputs [.frame .response ack]).inputs = .frame .response (0x01 :: ack.tail) :: [] ∧
      nextEvent ((machine busy).withInputs [.frame .response ack]).inputs = some (.rxByte 0x01) ∧
      ∃ t, step ((machine busy).withInputs [.cycle busyCycle]) = .next t :=
  ⟨rfl, rfl, rfl, rfl, rfl, rfl, _, rfl⟩

theorem witness_ResetRestoresEveryElement :
    let c : Cycle := { reset := true, host := some (.read 0x004 4), tick := true, rx := some 1 }
    let s := (smallest busy).withInputs [.cycle c]
    s.params.Legal ∧ s.inputs = .cycle c :: [] ∧ c.reset = true ∧ c.host = some (.read 0x004 4) := by decide

theorem witness_ResetStateMeetsTheStateInvariants :
    (smallest Block.reset).params.Legal ∧ (largest Block.reset).params.Legal := by decide

/-- ASM one byte short of capacity, and the FIFO full. -/
theorem witness_StepsKeepTheStateInvariants :
    let s := (smallest { enabled with asm := [1, 2, 3], sil := 2, fifo := [[1, 2, 3, 4]] }).withInputs
      [.cycle { rx := some 4 }]
    s.Inv ∧ ∃ t, step s = .next t :=
  ⟨by decide, _, rfl⟩

theorem witness_NothingIsAssembledWhileDisabled :
    let s := (machine resting).withInputs [.cycle { tick := true }]
    (s.block.en = false → s.block.asm = [] ∧ s.block.sil = 0) ∧
      ∃ t, step s = .next t ∧ t.block.en = false :=
  ⟨by decide, _, rfl, rfl⟩

theorem witness_DisabledBlockIsQuiescent :
    (machine resting).block.en = false ∧ (machine resting).block.ieRx = false ∧
      (machine resting).block.ieErr = false ∧ (machine resting).block.asm = [] := by decide

theorem witness_HostReadsHaveNoSideEffects :
    (∃ t u, stepEvent (.access (.read 0x020 4)) (machine busy) = .next t ∧
      stepEvent (.access (.read 0x020 4)) t = .next u) ∧
    (0x00C ≠ 0x000 ∧ 0x00C ≠ 0x004 ∧ 0x00C ≠ 0x008 ∧ (0xFFFFFF8F : Word).extractLsb' 4 3 = 0) :=
  ⟨⟨_, _, rfl, rfl⟩, by decide⟩

theorem witness_AccessesNotAdmittedDoNothing :
    ¬ (4 = 4 ∧ 0x200 % 4 = 0 ∧ 0x200 ≤ 0x1FC) ∧ ¬ (4 = 4 ∧ 0x012 % 4 = 0 ∧ 0x012 ≤ 0x1FC) ∧
      ¬ (2 = 4 ∧ 0x008 % 4 = 0 ∧ 0x008 ≤ 0x1FC) := by decide

theorem witness_ReservedLocationsReadZeroAndIgnoreWrites : (machine busy).Inv ∧ (smallest enabled).Inv := by decide

theorem witness_StatusShowsItsFields :
    (largest { busy with asm := List.replicate 255 0x7F, fifo := List.replicate 255 [1, 2] }).Inv ∧
      (largest Block.reset).params.Legal ∧ (smallest Block.reset).params.Legal := by decide +kernel

theorem witness_TransmitBufferReadsInByteLanes :
    (machine busy).Inv ∧ (machine (busy.encodeTx (readBody 0x01))).Inv ∧ 0 < 4 ∧ 3 < 4 := by decide +kernel

/-- Both sides of the equivalence occur: two blocks that read alike, and two that do not. -/
theorem witness_OnlyTheListedStateIsHidden :
    let b := busy
    let b' := { busy with asm := [0xFF, 0xFF], sil := 2, fifo := [ack, [9]] }
    Params.recommended.Legal ∧ b.Inv Params.recommended ∧ b'.Inv Params.recommended ∧ b ≠ b' ∧
      b.asm.length = b'.asm.length ∧ b.fifo.length = b'.fifo.length ∧ b.fifo.head? = b'.fifo.head? ∧
      b = { b' with asm := b.asm, sil := b.sil, fifo := b.fifo } ∧
      hostRead Params.recommended busy 0x000 4 ≠ hostRead Params.recommended { busy with dropbad := true } 0x000 4 := by
  decide +kernel

theorem witness_CrcResidueIsZero : 2 ≤ ([0xFF, 0xFF] : Frame).length ∧ 2 ≤ ack.length := by decide

/-- The first byte and the last, of the shortest and of a longer sequence. -/
theorem witness_SingleByteErrorsAreDetected :
    0 < (crcAppend []).length ∧ 1 < (crcAppend []).length ∧
      7 < (crcAppend [0x01, 0x06, 0x00, 0x03, 0x01, 0x00]).length ∧ (0x01 : Byte) ≠ 0 := by decide +kernel

theorem witness_HostRunsTheCrcOnItsBytes : 4 ≤ ([0x01, 0x03, 0x40, 0x21] : Frame).length := by decide

theorem witness_OnlyCrcCommandsAndResetChangeTheCrc :
    (∃ t, step ((machine busy).withInputs [.cycle { host := some (.write 0x008 4 0x00000105) }]) = .next t ∧
      t.block.crc ≠ busy.crc) ∧
    (∃ t, step ((machine resting).withInputs [.cycle { host := some (.write 0x008 4 0x00000004) }]) = .next t ∧
      t.block.crc ≠ resting.crc) ∧
    (∃ t, step ((machine resting).withInputs [.cycle { reset := true }]) = .next t ∧
      t.block.crc ≠ resting.crc) :=
  ⟨⟨_, rfl, by decide +kernel⟩, ⟨_, rfl, by decide⟩, ⟨_, rfl, by decide⟩⟩

theorem witness_EncoderAndDecoderNeverUseTheCrcRegister :
    Instr.tick ≠ .crcInit ∧ (∀ x, Instr.tick ≠ .crcByte x) ∧ ∃ t, exec .tick (machine busy) = .next t :=
  ⟨by decide, (fun _ h => nomatch h), _, rfl⟩

theorem witness_EncRelayFillsTheTransmitBuffer (a i d : Byte) :
    let hyp (cmd : Instr) (m : Byte) : Prop :=
      (cmd = .encRelayOn a i d ∧ m = 0x01) ∨ (cmd = .encRelayOff a i d ∧ m = 0x02) ∨
        (cmd = .encRelayMoment a i d ∧ m = 0x05)
    hyp (.encRelayOn a i d) 0x01 ∧ hyp (.encRelayOff a i d) 0x02 ∧ hyp (.encRelayMoment a i d) 0x05 :=
  ⟨.inl ⟨rfl, rfl⟩, .inr (.inl ⟨rfl, rfl⟩), .inr (.inr ⟨rfl, rfl⟩)⟩

theorem witness_ReservedCommandsOnlySetCmderr :
    let hyp (i : Instr) : Prop :=
      i = .encRelayRsv ∨ i = .reserved9 ∨ (∃ x, i = .reservedAB x) ∨ (∃ x, i = .reservedCF x)
    hyp .encRelayRsv ∧ hyp .reserved9 ∧ hyp (.reservedAB 1) ∧ hyp (.reservedCF 3) :=
  ⟨.inl rfl, .inr (.inl rfl), .inr (.inr (.inl ⟨_, rfl⟩)), .inr (.inr (.inr ⟨_, rfl⟩))⟩

theorem witness_EncodedFramesAreValidRequests :
    (∃ t, exec (.encRead 0x01) State.reset = .next t) ∧ (∃ t, exec (.encRelayOff 0x01 0 0) State.reset = .next t) ∧
      (∃ t, exec (.encIlock 0x01 7) State.reset = .next t) :=
  ⟨⟨_, rfl⟩, ⟨_, rfl⟩, ⟨_, rfl⟩⟩

theorem witness_RxByteExtendsTheFrame :
    (machine resting).block.en = false ∧
    ((smallest { enabled with asm := [1, 2] }).block.en = true ∧
      (smallest { enabled with asm := [1, 2] }).block.asm.length + 1 ≠ (smallest enabled).params.maxFrame) ∧
    ((smallest { enabled with asm := [1, 2, 3] }).block.en = true ∧
      (smallest { enabled with asm := [1, 2, 3] }).block.asm.length + 1 = (smallest enabled).params.maxFrame) := by
  decide

/-- Idle; the tick before the window; the tick that reaches it; and the silence at saturation. -/
theorem witness_TickCountsSilence :
    (machine enabled).block.asm = [] ∧ busy.asm ≠ [] ∧
      ((2 : Half).toNat = min (busy.sil.toNat + 1) 0xFFFF ∧ (2 : Half).toNat < busy.quiet.toNat) ∧
      ((3 : Half).toNat = min (({ busy with sil := 2 } : Block).sil.toNat + 1) 0xFFFF ∧
        busy.quiet.toNat ≤ (3 : Half).toNat) ∧
      (0xFFFF : Half).toNat = min (({ busy with sil := 0xFFFF } : Block).sil.toNat + 1) 0xFFFF := by decide

/-- The clauses of a close: valid and stored, valid and dropped, invalid and filtered, invalid and stored. -/
theorem witness_CloseFrameStoresFiltersOrDrops :
    (4 ≤ ack.length ∧ crcVerify ack = true) ∧ ¬ (4 ≤ ([1, 2] : Frame).length ∧ crcVerify [1, 2] = true) ∧
      busy.fifo.length = State.reset.params.rxqDepth ∧ enabled.fifo.length ≠ State.reset.params.rxqDepth ∧
      enabled.dropbad = false ∧ resting.dropbad ≠ false := by decide +kernel

/-- A gap of exactly QUIET ticks, one of QUIET - 1, and the byte that fills MAX_FRAME; other events between. -/
theorem witness_GapRuleSplitsFramesBySilence :
    let s := smallest enabled
    let s' := smallest { enabled with asm := [1, 2] }
    let es : List Event := [.tick, .access (.read 0x00C 4), .tick, .access (.write 0x008 4 0x00000006), .tick]
    s.Inv ∧ s'.Inv ∧ s.block.en = true ∧ s.block.asm.length + 1 < s.params.maxFrame ∧
      s'.block.asm.length + 1 < s'.params.maxFrame ∧ (∀ e ∈ es, gapEvent e = true) ∧
      s.block.quiet.toNat ≤ tickCount es ∧ tickCount (es.drop 1) < s.block.quiet.toNat ∧
      s.block.asm.length + 2 < s.params.maxFrame ∧ s'.block.asm.length + 2 = s'.params.maxFrame := by
  decide +kernel

theorem witness_FramesAreDeliveredAtTheQuietTick :
    let s := smallest { enabled with asm := [1, 2] }
    let s' := smallest { enabled with asm := [1, 2, 3] }
    s.Inv ∧ s'.Inv ∧ s.block.en = true ∧ s'.block.en = true ∧ s.block.asm.length + 1 < s.params.maxFrame ∧
      2 < s.block.quiet.toNat ∧ s'.block.asm.length + 1 = s'.params.maxFrame := by decide

/-- The boundary gaps Q·P and (Q-1)·P, and one between them. -/
theorem witness_RealTimeGapIsExactToOneTick :
    let s := machine enabled
    let P := s.params.tickPeriod
    let Q := s.block.quiet.toNat
    s.Inv ∧ s.block.en = true ∧ s.block.asm.length + 1 < s.params.maxFrame ∧ Q * P ≤ 3000 ∧
      2000 ≤ (Q - 1) * P ∧ (Q - 1) * P < 2001 ∧ 2999 < Q * P ∧ 999 < P := by decide +kernel

/-- The new window is reached at the next tick (V-DLM-4), and it is not. -/
theorem witness_QuietWriteActsAtTheNextTick :
    busy.asm ≠ [] ∧
      (legalQuiet ((0x000C0002 : Word).extractLsb' 0 16)).toNat ≤ min (busy.sil.toNat + 1) 0xFFFF ∧
      min (busy.sil.toNat + 1) 0xFFFF < (legalQuiet ((0x000C0003 : Word).extractLsb' 0 16)).toNat := by decide

theorem witness_OnlyPopAndResetRemoveEntries :
    ∃ t, step ((machine busy).withInputs [.cycle { host := some (.write 0x008 4 0x00000006) }]) = .next t :=
  ⟨_, rfl⟩

/-- With one entry: a frame closes, is popped, and the next one closes. -/
theorem witness_ServicedFifoNeverDrops :
    let s := smallest { enabled with quiet := 1 }
    s.Inv ∧ s.block.fifo = [] ∧
      Serviced [.rxByte 1, .tick, .access (.write 0x008 4 0x00000006), .rxByte 2, .tick] s 0 0 := by
  refine ⟨by decide, rfl, ?_⟩
  simp only [Serviced]
  exact ⟨by decide +kernel, by decide +kernel, by decide +kernel, by decide +kernel, by decide +kernel, trivial⟩

theorem witness_WireFramesArriveByteByByte :
    Instr.channel (.wrqRead 0x01 0x15 0xE7) = .request ∧ Instr.channel (.wrsOther 0x01 0x83 [] 0 0) = .response := by
  decide

/-- One byte below MAX_FRAME. -/
theorem witness_WireFramesFillTheAssemblyBuffer :
    let i : Instr := .wrsAck 0x01 (List.replicate 251 0) 0 0
    i.channel = .response ∧ (machine enabled).block.en = true ∧ (machine enabled).block.asm = [] ∧
      (encode i).length < (machine enabled).params.maxFrame := by decide +kernel

theorem witness_DecodedRegistersReadTheHeadEntry :
    enabled.fifo = [] ∧ (0x020 ≤ 0x020 ∧ 0x020 ≤ 0x03C) ∧ (0x100 ≤ 0x1FC ∧ 0x1FC ≤ 0x1FC) ∧
      busy.fifo.head? = (holding ack).fifo.head? ∧ busy.incount = (holding ack).incount := by decide

/-- The shortest head frame and the longest. -/
theorem witness_RxinfoDescribesTheHeadFrame :
    let longest : Frame := List.replicate 256 0x5A
    (holding [1]).fifo = [1] :: [] ∧ 1 ≤ ([1] : Frame).length ∧ (holding longest).fifo = longest :: [] ∧
      longest.length ≤ 256 := by decide +kernel

theorem witness_RxcrcHoldsReceivedAndComputedCrc :
    (holding [0xFF, 0xFF]).fifo = [0xFF, 0xFF] :: [] ∧ 2 ≤ ([0xFF, 0xFF] : Frame).length ∧
      (holding [1]).fifo = [1] :: [] ∧ ([1] : Frame).length < 2 := by decide

/-- An acknowledgement of 8 bytes, one whose value is absent (V-DEC-13), one with neither, and a response. -/
theorem witness_RxackHoldsTheEchoedRegisterAndValue :
    let isAck (h : Frame) : Bool := decide (4 ≤ h.length) && crcVerify h && h.getD 1 0 == 0x06
    let short : Frame := [0x01, 0x06, 0x00, 0x03, 0xA1, 0xD8]
    (holding ack).fifo = ack :: [] ∧ isAck ack = true ∧ 8 ≤ ack.length ∧
      (holding short).fifo = short :: [] ∧ isAck short = true ∧ 6 ≤ short.length ∧ ¬ 8 ≤ short.length ∧
      isAck (crcAppend [0x01, 0x06]) = true ∧ ¬ 6 ≤ (crcAppend [0x01, 0x06]).length ∧ isAck fourRegs = false := by
  decide +kernel

/-- A response of four registers, an empty payload (V-DEC-12), and an acknowledgement. -/
theorem witness_RxreadCountsTheRegisters :
    let counted (h : Frame) : Bool := decide (4 ≤ h.length ∧ 5 ≤ h.length) && crcVerify h && h.getD 1 0 == 0x03
    let short : Frame := [0x01, 0x03, 0x40, 0x21]
    (holding fourRegs).fifo = fourRegs :: [] ∧ fourRegs.length ≤ 256 ∧ counted fourRegs = true ∧
      (holding short).fifo = short :: [] ∧ counted short = false ∧ counted ack = false ∧
      0 < (holding fourRegs).incount.toNat ∧ 3 < (fourRegs.length - 5) / 2 ∧ ¬ 4 < (fourRegs.length - 5) / 2 := by
  decide +kernel

/-- Inputs 3 and 4 of a four-register response: the last present and the first padded. -/
theorem witness_RxvalHoldsTheLowBytes :
    (holding fourRegs).fifo = fourRegs :: [] ∧ crcVerify fourRegs = true ∧ fourRegs.getD 1 0 = 0x03 ∧
      (3 < (holding fourRegs).incount.toNat ∧ 2 * 3 + 7 ≤ fourRegs.length) ∧ ¬ 2 * 4 + 7 ≤ fourRegs.length := by
  decide +kernel

/-- A runt, a wrong CRC, and a valid frame of another function. -/
theorem witness_OtherFramesAreNotInterpreted :
    let bad : Frame := [0x01, 0x06, 0x00, 0x03, 0x00, 0x00, 0x78, 0x5A]
    let other : Frame := [0x01, 0x83, 0x02, 0xC0, 0xF1]
    ([0xFF, 0xFF] : Frame).length < 4 ∧ crcVerify bad = false ∧
      (crcVerify other = true ∧ other.getD 1 0 ≠ 0x03 ∧ other.getD 1 0 ≠ 0x06) := by decide +kernel

/-- The last lane inside the frame, the first past it, and the last of the window. -/
theorem witness_RxdataWindowShowsTheHeadBytes :
    (holding ack).fifo = ack :: [] ∧ (1 < 64 ∧ 3 < 4 ∧ 4 * 1 + 3 < ack.length) ∧
      (2 < 64 ∧ 0 < 4 ∧ ¬ 4 * 2 + 0 < ack.length) ∧ 63 < 64 := by decide

theorem witness_TheHeadEntryHoldsBetweenPops :
    let s := (machine { enabled with asm := [1], sil := 2, fifo := [ack] }).withInputs [.cycle { tick := true }]
    (∃ t, step s = .next t) ∧ s.block.fifo ≠ [] ∧ (nextEvent s.inputs).bind eventInstr ≠ some .rxPop ∧
      (∀ a, nextEvent s.inputs ≠ some (.reset a)) ∧ (∀ v, nextEvent s.inputs ≠ some (.access (.write 0x004 4 v))) ∧
      (0x020 ≤ 0x030 ∧ 0x030 ≤ 0x03C) :=
  ⟨⟨_, rfl⟩, by decide, by decide, (fun _ h => nomatch h), (fun _ h => nomatch h), by decide⟩

theorem witness_CountersCountTheCloses :
    let s := (machine { enabled with asm := [1], sil := 2, cntFrames := 0xFFFF }).withInputs [.cycle { tick := true }]
    (∃ t, step s = .next t) ∧ (nextEvent s.inputs).bind eventInstr ≠ some .cntClear ∧
      (∀ a, nextEvent s.inputs ≠ some (.reset a)) ∧
      (nextEvent s.inputs).bind (closingFrame s.params s.block) = some [1] ∧ crcVerify [1] = false ∧
      (nextEvent s.inputs).bind (closingFrame s.params { s.block with sil := 1 }) = none ∧
      closingFrame (smallest enabled).params { enabled with asm := [1, 2, 3] } (.rxByte 4) = some [1, 2, 3, 4] :=
  ⟨⟨_, rfl⟩, by decide, (fun _ h => nomatch h), by decide, by decide, by decide, by decide⟩

theorem witness_StickyBitsClearOnlyByHostOrReset :
    let s := (machine resting).withInputs [.cycle { host := some (.write 0x00C 4 0x00000070) }]
    ∃ t, step s = .next t ∧ (s.block.cmderr = true ∧ t.block.cmderr = false) ∧
      (s.block.droperr = true ∧ t.block.droperr = false) ∧ (s.block.crcerr = true ∧ t.block.crcerr = false) :=
  ⟨_, rfl, by decide, by decide, by decide⟩

theorem witness_InterruptFollowsTheState : (0x00000070 : Word).extractLsb' 4 3 = 7 := by decide

end Sys2Proof.Tests
end

section
/-! Every step and every instruction answers a next state (R7). -/

namespace Sys2Proof.Machine

/-- A wire sequence is taken whatever its bytes decode to, also where they are no row's format (R88). -/
theorem stepFrame_next (d : Direction) (bs : Frame) (s : State) : ∃ t, stepFrame d bs s = .next t := by
  unfold stepFrame
  cases decode (directionChannel d) bs with
  | ok i => exact ⟨_, exec_eq i _⟩
  | error _ => exact ⟨_, rfl⟩

/-- No premise on the decoder, unlike `step_eq`, which also says which state is answered. -/
theorem step_next (s : State) : ∃ t, step s = .next t := by
  cases hq : s.inputs with
  | nil => exact ⟨s.withRdata none, by simp only [step, hq]⟩
  | cons x q =>
    cases x with
    | cycle c => exact ⟨_, step_cycle hq⟩
    | frame d bs =>
      have hstep : step s = stepFrame d bs (s.withInputs q) := by simp only [step, hq]
      rw [hstep]
      exact stepFrame_next d bs _

/-- Settles O8: `step_next` for the steps, `exec_eq` for the instructions. -/
theorem theBlockNeverStops : Obligations.TheBlockNeverStops := by
  unfold Obligations.TheBlockNeverStops
  exact ⟨step_next, fun i s => ⟨instrState i s, exec_eq i s⟩⟩

end Sys2Proof.Machine
end

section
/-! A wire frame encodes back to the very bytes it was decoded from (R88 to R96), so every step is the one
event at the head of its queue (R5). -/

namespace Sys2Proof.Machine

theorem relayModeByte_of_relayModeOfByte {x : Byte} {m : RelayMode} (h : relayModeOfByte x = some m) :
    relayModeByte m = x := by
  unfold relayModeOfByte at h
  split_ifs at h <;> cases h <;> simp_all [relayModeByte]

theorem ilockModeByte_of_ilockModeOfByte {x : Byte} {m : IlockMode} (h : ilockModeOfByte x = some m) :
    ilockModeByte m = x := by
  unfold ilockModeOfByte at h
  split_ifs at h <;> cases h <;> simp_all [ilockModeByte]

/-- Both kinds of write request keep their bytes (R90, R91). -/
theorem encode_of_decodeWriteRequest {a b3 b4 b5 cl ch : Byte} {i : Instr}
    (h : decodeWriteRequest a b3 b4 b5 cl ch = .ok i) :
    encode i = [a, 0x06, 0x00, b3, b4, b5, cl, ch] ∧ i.channel = .request := by
  unfold decodeWriteRequest at h
  split at h
  · next m hm =>
    cases h
    simp [encode, relayBody, relayModeByte_of_relayModeOfByte hm, Instr.channel]
  · split at h
    · next hfix =>
      split at h
      · next m hm =>
        cases h
        simp_all [encode, ilockBody, ilockModeByte_of_ilockModeOfByte hm, Instr.channel]
      · cases h
    · cases h

theorem encode_of_decodeRequest {bs : Frame} {i : Instr} (h : decodeRequest bs = .ok i) :
    encode i = bs ∧ i.channel = .request := by
  unfold decodeRequest at h
  split at h
  · split at h
    · cases h
      simp_all [encode, readBody, Instr.channel]
    · split at h
      · obtain ⟨he, hc⟩ := encode_of_decodeWriteRequest h
        simp_all
      · cases h
  · cases h

/-- A run of at least two bytes is its beginning and its last two bytes (R88). -/
theorem take_append_lastTwo {s : Frame} (h : 2 ≤ s.length) :
    s.take (s.length - 2) ++ [byteAt s (s.length - 2), byteAt s (s.length - 1)] = s := by
  have hdrop : s.drop (s.length - 2) = [byteAt s (s.length - 2), byteAt s (s.length - 1)] := by
    have hlast : s.length - 2 + 1 = s.length - 1 := by omega
    rw [List.drop_eq_getElem_cons (by omega), hlast, List.drop_eq_getElem_cons (by omega),
      List.drop_of_length_le (by omega)]
    simp [byteAt, show s.length - 2 < s.length by omega, show s.length - 1 < s.length by omega]
  rw [← hdrop, List.take_append_drop]

theorem encode_of_decodeResponse {bs : Frame} {i : Instr} (h : decodeResponse bs = .ok i) :
    encode i = bs ∧ i.channel = .response := by
  unfold decodeResponse at h
  split at h
  · next a f rest =>
    split_ifs at h with hrunt hlong hread hack
    all_goals
      have hrest := take_append_lastTwo (s := rest) (by omega)
      cases h
      simp_all [encode, wireFrame, Instr.channel]
  · cases h

/-- What `step_eq` asks of the decoder. -/
theorem encode_of_decode_wire (d : Direction) (bs : Frame) (i : Instr)
    (h : decode (directionChannel d) bs = .ok i) : encode i = bs ∧ i.channel = directionChannel d := by
  cases d with
  | request => exact encode_of_decodeRequest h
  | response => exact encode_of_decodeResponse h

/-- All an event can do to the block: its instruction, the reset, a register write, or nothing (R5). -/
theorem eventBlock_cases (p : Params) (e : Event) (b : Block) :
    (∃ i, eventInstr e = some i ∧ eventBlock p e b = instrBlock p i b) ∨
    (∃ a, e = .reset a ∧ eventBlock p e b = Block.reset) ∨
    (∃ off n v, e = .access (.write off n v) ∧ isCommandWrite off n = false ∧
      eventBlock p e b = hostWrite off n v b) ∨
    (∃ off n, e = .access (.read off n) ∧ eventBlock p e b = b) := by
  cases e with
  | reset a => exact .inr (.inl ⟨a, rfl, rfl⟩)
  | access a =>
    cases a with
    | read off n => exact .inr (.inr (.inr ⟨off, n, rfl, rfl⟩))
    | write off n v =>
      cases h : isCommandWrite off n with
      | true => exact .inl ⟨decodeCmd v, by simp [eventInstr, h], by simp [eventBlock, eventInstr, h]⟩
      | false => exact .inr (.inr (.inl ⟨off, n, v, rfl, h, by simp [eventBlock, eventInstr, h]⟩))
  | rxByte x => exact .inl ⟨.rxByte x, rfl, rfl⟩
  | tick => exact .inl ⟨.tick, rfl, rfl⟩

/-- `step_eq` without its premise. -/
theorem step_eq_stepState (s : State) : step s = .next (stepState s) :=
  step_eq encode_of_decode_wire s

theorem eq_stepState_of_step {s t : State} (h : step s = .next t) : t = stepState s := by
  rw [step_eq_stepState] at h
  exact (Host.Outcome.next.inj h).symm

@[simp] theorem stepState_params (s : State) : (stepState s).params = s.params := by
  unfold stepState
  split <;> simp

@[simp] theorem stepState_inputs (s : State) : (stepState s).inputs = restInputs s.inputs := by
  unfold stepState
  split <;> simp

theorem stepState_block_of_event {s : State} {e : Event} (h : nextEvent s.inputs = some e) :
    (stepState s).block = eventBlock s.params e s.block := by
  simp [stepState, h, eventState_block]

theorem stepState_block_of_none {s : State} (h : nextEvent s.inputs = none) : (stepState s).block = s.block := by
  simp [stepState, h]

/-- All a step can do to the block: what its one event does, or nothing where there is none (R5, R252). -/
theorem stepState_block_cases (s : State) :
    (∃ e, nextEvent s.inputs = some e ∧ (stepState s).block = eventBlock s.params e s.block) ∨
    (nextEvent s.inputs = none ∧ (stepState s).block = s.block) := by
  cases h : nextEvent s.inputs with
  | some e => exact .inl ⟨e, rfl, stepState_block_of_event h⟩
  | none => exact .inr ⟨rfl, stepState_block_of_none h⟩

end Sys2Proof.Machine
end

section
/-! Each instruction, each event and so each step keeps the invariants of R39. -/

namespace Sys2Proof.Machine

variable {p : Params} {b : Block}

theorem reset_inv (hp : p.Legal) : Block.reset.Inv p := by
  have hcap : 1 ≤ p.maxFrame := by omega
  exact ⟨hcap, fun _ => rfl, Nat.zero_le _, fun _ hf => (List.not_mem_nil hf).elim, by decide, .inl rfl,
    fun _ => rfl⟩

theorem hostWrite_inv (hp : p.Legal) (off n : Nat) (v : Word) (h : b.Inv p) : (hostWrite off n v b).Inv p := by
  rcases hostWrite_cases off n v b with ⟨_, _, e⟩ | ⟨_, _, e⟩ | ⟨_, _, e⟩ | ⟨_, e⟩ <;> rw [e]
  · exact writeCtrl_inv hp v h
  · exact writeCfg_inv v h
  · exact h
  · exact h

theorem instrBlock_inv (hp : p.Legal) (i : Instr) (h : b.Inv p) : (instrBlock p i b).Inv p := by
  cases i with
  | nop => exact h
  | encRead => exact encodeTx_inv _ h
  | encRelayOn => exact encodeTx_inv _ h
  | encRelayOff => exact encodeTx_inv _ h
  | encRelayMoment => exact encodeTx_inv _ h
  | encRelayRsv => exact raise_inv _ h
  | encIlock => exact encodeTx_inv _ h
  | crcInit => exact h
  | crcByte => exact h
  | rxPop => exact popFifo_inv h
  | rxAbort => exact discardAsm_inv hp h
  | cntClear => exact h
  | reserved9 => exact raise_inv _ h
  | reservedAB => exact raise_inv _ h
  | reservedCF => exact raise_inv _ h
  | rxByte x => exact rxByte_inv hp x h
  | tick => exact tick_inv hp h
  | wrqRead a => exact rxByte_inv hp a h
  | wrqRelay a => exact rxByte_inv hp a h
  | wrqIlock a => exact rxByte_inv hp a h
  | wrsRead a => exact rxByte_inv hp a h
  | wrsAck a => exact rxByte_inv hp a h
  | wrsOther a => exact rxByte_inv hp a h

theorem eventBlock_inv (hp : p.Legal) (e : Event) (h : b.Inv p) : (eventBlock p e b).Inv p := by
  rcases eventBlock_cases p e b with ⟨i, _, he⟩ | ⟨_, _, he⟩ | ⟨off, n, v, _, _, he⟩ | ⟨_, _, _, he⟩ <;> rw [he]
  · exact instrBlock_inv hp i h
  · exact reset_inv hp
  · exact hostWrite_inv hp off n v h
  · exact h

theorem stepState_inv {s : State} (h : s.Inv) : (stepState s).Inv := by
  obtain ⟨hp, hb⟩ := h
  refine ⟨by rwa [stepState_params], ?_⟩
  rw [stepState_params]
  rcases stepState_block_cases s with ⟨e, _, he⟩ | ⟨_, he⟩ <;> rw [he]
  · exact eventBlock_inv hp e hb
  · exact hb

/-- Settles O12: a step leaves the state of its one event, and every event keeps R39. -/
theorem stepsKeepTheStateInvariants : Obligations.StepsKeepTheStateInvariants := by
  unfold Obligations.StepsKeepTheStateInvariants
  intro s t h hst
  rw [eq_stepState_of_step hst]
  exact stepState_inv h

end Sys2Proof.Machine
end

section
/-! Bits and halves of the packed register words, and the writes that do nothing (R23 to R37, R62). -/

namespace Sys2Proof.Machine

theorem getLsbD_flagBit (f : Bool) (k i : Nat) :
    (flagBit f k).getLsbD i = (decide (i < 32) && decide (i = k) && f) := by
  simp only [flagBit, BitVec.getLsbD_shiftLeft, BitVec.getLsbD_setWidth, BitVec.getLsbD_ofBool]
  grind

/-- A word of two fields, the upper one above bit 16, is their sum (R24, R36). -/
theorem toNat_halves {m : Nat} (hm : m ≤ 16) (hi : BitVec m) (lo : Half) :
    ((hi.setWidth 32 <<< 16) ||| lo.setWidth 32 : Word).toNat = hi.toNat * 65536 + lo.toNat := by
  have hhi : hi.toNat < 2 ^ 16 := lt_of_lt_of_le hi.isLt (Nat.pow_le_pow_right (by decide) hm)
  have hlo := lo.isLt
  have hshift : (hi.setWidth 32 <<< 16 : Word).toNat = 2 ^ 16 * hi.toNat := by
    rw [BitVec.toNat_shiftLeft, BitVec.toNat_setWidth, Nat.shiftLeft_eq]
    omega
  rw [BitVec.toNat_or, hshift, BitVec.toNat_setWidth, Nat.mod_eq_of_lt (by omega),
    ← Nat.two_pow_add_eq_or_of_lt hlo]
  omega

/-- Bit `i` of a count of at most `m` bits shown from bit `k` up. -/
theorem getLsbD_countField {n m k i : Nat} (hn : n < 2 ^ m) (hi : i < 32) :
    (BitVec.ofNat 32 n <<< k).getLsbD i = (decide (k ≤ i ∧ i < k + m) && n.testBit (i - k)) := by
  simp only [BitVec.getLsbD_shiftLeft, BitVec.getLsbD_ofNat]
  by_cases hm : i < k + m
  · grind
  · have : n.testBit (i - k) = false :=
      Nat.testBit_lt_two_pow (lt_of_lt_of_le hn (Nat.pow_le_pow_right (by decide) (by omega)))
    simp [this]

theorem toNat_extractLsb'_of_testBit {w : Word} {k m n : Nat} (hn : n < 2 ^ m)
    (h : ∀ i < m, w.getLsbD (k + i) = n.testBit i) : (w.extractLsb' k m).toNat = n := by
  have hw : w.extractLsb' k m = BitVec.ofNat m n := by
    apply BitVec.eq_of_getLsbD_eq
    intro i hi
    rw [BitVec.getLsbD_extractLsb', BitVec.getLsbD_ofNat, h i hi]
  rw [hw, BitVec.toNat_ofNat, Nat.mod_eq_of_lt hn]

/-- The bytes of a lane word are the four bytes, the first in the lowest lane (R65). -/
theorem laneWord_lane (b0 b1 b2 b3 : Byte) {j : Nat} (hj : j < 4) :
    (laneWord b0 b1 b2 b3).extractLsb' (8 * j) 8 = [b0, b1, b2, b3].getD j 0 := by
  apply BitVec.eq_of_getLsbD_eq
  intro i hi
  simp only [laneWord, BitVec.getLsbD_extractLsb', BitVec.getLsbD_or, BitVec.getLsbD_shiftLeft,
    BitVec.getLsbD_setWidth]
  obtain rfl | rfl | rfl | rfl : j = 0 ∨ j = 1 ∨ j = 2 ∨ j = 3 := by omega
  all_goals grind

/-- The lane `j` of the word of a run at `k` is its byte `k + j` (R65). -/
theorem runWord_lane (s : Frame) (k : Nat) {j : Nat} (hj : j < 4) :
    (runWord s k).extractLsb' (8 * j) 8 = byteAt s (k + j) := by
  rw [runWord, laneWord_lane _ _ _ _ hj]
  obtain rfl | rfl | rfl | rfl : j = 0 ∨ j = 1 ∨ j = 2 ∨ j = 3 := by omega
  all_goals rfl

/-- Only CTRL, CFG, CMD and STATUS answer a write (R62, R63). -/
theorem stepEvent_write_ignored (s : State) {off : Nat} (n : Nat) (v : Word)
    (h : off ≠ 0x000 ∧ off ≠ 0x004 ∧ off ≠ 0x008 ∧ off ≠ 0x00C) :
    stepEvent (.access (.write off n v)) s = .next { s with rdata := none } := by
  obtain ⟨h0, h4, h8, hc⟩ := h
  have hcmd : isCommandWrite off n = false := by
    rw [Bool.eq_false_iff, Ne, isCommandWrite_iff]
    exact fun h => h8 h.1
  have hw : hostWrite off n v s.block = s.block := by
    rcases hostWrite_cases off n v s.block with ⟨e, _⟩ | ⟨e, _⟩ | ⟨e, _⟩ | ⟨_, e⟩
    · exact absurd e h0
    · exact absurd e h4
    · exact absurd e hc
    · exact e
  simp [stepEvent, eventInstr, hcmd, applyEvent, hw, State.withRdata, State.withBlock]

end Sys2Proof.Machine
end

section
/-! What a read of each register answers, and the writes of CTRL and CFG (R23, R24, R64). -/

namespace Sys2Proof.Machine

theorem hostRead_ctrl (p : Params) (b : Block) : hostRead p b 0x000 4 = ctrlWord b := rfl
theorem hostRead_cfg (p : Params) (b : Block) : hostRead p b 0x004 4 = cfgWord b := rfl
theorem hostRead_status (p : Params) (b : Block) : hostRead p b 0x00C 4 = statusWord p b := rfl
theorem hostRead_crc (p : Params) (b : Block) : hostRead p b 0x010 4 = b.crc.setWidth 32 := rfl
theorem hostRead_txinfo (p : Params) (b : Block) : hostRead p b 0x014 4 = BitVec.ofNat 32 b.txlen := rfl
theorem hostRead_tx0 (p : Params) (b : Block) : hostRead p b 0x018 4 = runWord b.txbuf.toFrame 0 := rfl
theorem hostRead_tx1 (p : Params) (b : Block) : hostRead p b 0x01C 4 = runWord b.txbuf.toFrame 4 := rfl
theorem hostRead_cnt0 (p : Params) (b : Block) : hostRead p b 0x040 4 = cnt0Word b := rfl
theorem hostRead_cnt1 (p : Params) (b : Block) : hostRead p b 0x044 4 = cnt1Word b := rfl

theorem stepEvent_write_ctrl (s : State) (v : Word) :
    stepEvent (.access (.write 0x000 4 v)) s = .next ((s.withRdata none).withBlock (s.block.writeCtrl v)) := rfl
theorem stepEvent_write_cfg (s : State) (v : Word) :
    stepEvent (.access (.write 0x004 4 v)) s = .next ((s.withRdata none).withBlock (s.block.writeCfg v)) := rfl

end Sys2Proof.Machine
end

section
/-! CTRL and CFG (R23, R24). -/

namespace Sys2Proof.Machine

/-- CTRL reads back the low four bits written (R23). -/
theorem ctrlWord_writeCtrl (v : Word) (b : Block) : ctrlWord (b.writeCtrl v) = v &&& 0xF := by
  apply BitVec.eq_of_getLsbD_eq
  intro i hi
  have hmask : (0xF : Word).getLsbD i = decide (i < 4) := by
    revert i
    decide
  simp only [ctrlWord, BitVec.getLsbD_or, BitVec.getLsbD_and, getLsbD_flagBit, hmask, Block.writeCtrl_en,
    Block.writeCtrl_ieRx, Block.writeCtrl_ieErr, Block.writeCtrl_dropbad]
  grind

/-- Settles O18: the write is `writeCtrl`, and CTRL reads it back. -/
theorem ctrlWriteStoresFourBits : Obligations.CtrlWriteStoresFourBits := by
  unfold Obligations.CtrlWriteStoresFourBits
  refine ⟨fun p => rfl, fun s v => ⟨_, stepEvent_write_ctrl s v, ?_, ?_⟩⟩
  · simp [State.withBlock, State.withRdata, Block.writeCtrl, Block.clearsEn]
  · exact (hostRead_ctrl _ _).trans (ctrlWord_writeCtrl v s.block)

theorem legalQuiet_toNat (q : Half) : (legalQuiet q).toNat = if q.toNat = 0 then 1 else q.toNat := by
  rw [legalQuiet, apply_ite BitVec.toNat]
  simp [BitVec.toNat_eq]

theorem legalIncount_toNat (n : BitVec 5) : (legalIncount n).toNat = min n.toNat 16 := by
  unfold legalIncount
  split
  · omega
  · next h => exact (min_eq_right (Nat.le_of_not_le h)).symm

theorem cfgWord_toNat (b : Block) : (cfgWord b).toNat = b.incount.toNat * 65536 + b.quiet.toNat :=
  toNat_halves (by decide) b.incount b.quiet

/-- Settles O19: the write is `writeCfg`, whose two values are those of `legalQuiet` and `legalIncount`. -/
theorem cfgWriteStoresLegalValues : Obligations.CfgWriteStoresLegalValues := by
  unfold Obligations.CfgWriteStoresLegalValues
  refine ⟨fun s v => ⟨_, stepEvent_write_cfg s v, rfl, ?_, ?_, ?_⟩, fun p => rfl⟩
  · simp [legalQuiet_toNat, BitVec.extractLsb'_toNat]
  · simp [legalIncount_toNat, BitVec.extractLsb'_toNat, Nat.shiftRight_eq_div_pow]
  · rw [hostRead_cfg, cfgWord_toNat]

end Sys2Proof.Machine
end

section
/-! STATUS (R26). -/

namespace Sys2Proof.Machine

section Status

variable {p : Params} {b : Block} (hp : p.Legal) (hb : b.Inv p)
include hp hb

theorem fifo_length_lt : b.fifo.length < 2 ^ 8 := by
  obtain ⟨_, ⟨_, hdepth⟩, _⟩ := hp
  obtain ⟨_, _, hfifo, _⟩ := hb
  omega

theorem asm_length_lt : b.asm.length < 2 ^ 9 := by
  obtain ⟨⟨_, hmax⟩, _⟩ := hp
  obtain ⟨hasm, _⟩ := hb
  omega

/-- The bits of STATUS: the flags, and the two counts, which R39 bounds (R26). -/
theorem getLsbD_statusWord {i : Nat} (hi : i < 32) :
    (statusWord p b).getLsbD i =
      (decide (i = 0) && b.rxne || decide (i = 1) && b.rxfull p || decide (i = 2) && b.assembling ||
        decide (i = 4) && b.cmderr || decide (i = 5) && b.droperr || decide (i = 6) && b.crcerr ||
        decide (8 ≤ i ∧ i < 16) && b.fifo.length.testBit (i - 8) ||
        decide (16 ≤ i ∧ i < 25) && b.asm.length.testBit (i - 16)) := by
  simp only [statusWord, BitVec.getLsbD_or, getLsbD_flagBit, getLsbD_countField (fifo_length_lt hp hb) hi,
    getLsbD_countField (asm_length_lt hp hb) hi, hi, decide_true, Bool.true_and, Nat.reduceAdd]

theorem statusWord_fifoCount : ((statusWord p b).extractLsb' 8 8).toNat = b.fifo.length := by
  refine toNat_extractLsb'_of_testBit (fifo_length_lt hp hb) fun i hi => ?_
  rw [getLsbD_statusWord hp hb (by omega)]
  grind

theorem statusWord_asmCount : ((statusWord p b).extractLsb' 16 9).toNat = b.asm.length := by
  refine toNat_extractLsb'_of_testBit (asm_length_lt hp hb) fun i hi => ?_
  rw [getLsbD_statusWord hp hb (by omega)]
  grind

theorem statusWord_reserved : (statusWord p b).extractLsb' 25 7 = 0 := by
  refine BitVec.eq_of_toNat_eq (toNat_extractLsb'_of_testBit (by decide) fun i hi => ?_)
  rw [getLsbD_statusWord hp hb (by omega)]
  grind

end Status

theorem statusWord_reset {p : Params} (hp : p.Legal) : statusWord p Block.reset = 0 := by
  have hfull : Block.reset.rxfull p = false := by
    obtain ⟨_, ⟨hdepth, _⟩, _⟩ := hp
    exact beq_eq_false_iff_ne.2 (Nat.ne_of_lt hdepth)
  rw [statusWord, hfull]
  decide

/-- Settles O20: bit by bit by `getLsbD_statusWord`. -/
theorem statusShowsItsFields : Obligations.StatusShowsItsFields := by
  unfold Obligations.StatusShowsItsFields
  refine ⟨fun s ⟨hp, hb⟩ => ?_, fun p hp => statusWord_reset hp⟩
  have hbit {i : Nat} (hi : i < 32) := getLsbD_statusWord hp hb hi
  rw [hostRead_status]
  refine ⟨?_, ?_, ?_, ?_, ?_, ?_, ?_, ?_, statusWord_fifoCount hp hb, statusWord_asmCount hp hb,
    statusWord_reserved hp hb⟩
  · rw [hbit (by decide)]; simp [rxne_iff]
  · rw [hbit (by decide)]; simp [rxfull_iff]
  · rw [hbit (by decide)]; simp [assembling_iff]
  all_goals
    rw [hbit (by decide)]
    simp

end Sys2Proof.Machine
end

section
/-! TXINFO, TX0 and TX1 (R28, R29, R30). -/

namespace Sys2Proof.Machine

theorem hostRead_tx_reset (p : Params) {off : Nat} (h : off = 0x014 ∨ off = 0x018 ∨ off = 0x01C) :
    hostRead p Block.reset off 4 = 0 := by
  rcases h with rfl | rfl | rfl <;> rfl

/-- Settles O22: the lanes are those of `runWord_lane`. -/
theorem transmitBufferReadsInByteLanes : Obligations.TransmitBufferReadsInByteLanes := by
  unfold Obligations.TransmitBufferReadsInByteLanes
  refine ⟨fun s ⟨_, hb⟩ => ?_, fun p b j hj => ?_, fun p off h => hostRead_tx_reset p h, fun s off n v h => ?_⟩
  · obtain ⟨_, _, _, _, _, hlen, _⟩ := hb
    refine ⟨?_, hlen⟩
    rcases hlen with h | h <;> simp [hostRead_txinfo, h]
  · rw [hostRead_tx0, hostRead_tx1, runWord_lane _ _ hj, runWord_lane _ _ hj, Nat.zero_add]
    exact ⟨rfl, rfl⟩
  · exact stepEvent_write_ignored s n v (by omega)

end Sys2Proof.Machine
end

section
/-! CNT0, CNT1 and CNT_CLEAR (R36, R37, R227). -/

namespace Sys2Proof.Machine

theorem cnt0Word_toNat (b : Block) : (cnt0Word b).toNat = b.cntCrcerr.toNat * 65536 + b.cntFrames.toNat :=
  toNat_halves (by decide) b.cntCrcerr b.cntFrames

theorem cnt1Word_toNat (b : Block) : (cnt1Word b).toNat = b.cntDrop.toNat :=
  BitVec.toNat_setWidth_of_le (by decide)

theorem decodeCmd_cntClear {w : Word} (h : cmdOp w = 0x8) : decodeCmd w = .cntClear := by
  simp [decodeCmd, h]

/-- In a cycle with a command and a tick, the command is the first step and the tick the second (R229). -/
theorem step_command_then_tick {s : State} {w : Word} {q : List Input}
    (h : s.inputs = .cycle { host := some (.write 0x008 4 w), tick := true } :: q) :
    ∃ t u, step s = .next t ∧ step t = .next u ∧
      u.block = (instrBlock s.params (decodeCmd w) s.block).tick s.params := by
  have hnext : nextEvent s.inputs = some (.access (.write 0x008 4 w)) := by rw [h]; rfl
  have hnext' : nextEvent (stepState s).inputs = some .tick := by rw [stepState_inputs, h]; rfl
  refine ⟨stepState s, stepState (stepState s), step_eq_stepState s, step_eq_stepState _, ?_⟩
  rw [stepState_block_of_event hnext', stepState_params, stepState_block_of_event hnext]
  rfl

/-- Settles O23: by `cnt0Word_toNat`, and by `step_command_then_tick` for the clear and the tick of one cycle. -/
theorem counterRegistersShowAndClearTheCounters : Obligations.CounterRegistersShowAndClearTheCounters := by
  unfold Obligations.CounterRegistersShowAndClearTheCounters
  refine ⟨fun w => decodeCmd_cntClear, fun p => ⟨rfl, rfl⟩, fun p b => ?_,
    fun s off n v h => stepEvent_write_ignored s n v (by omega), fun s => rfl, fun s w q hw hq => ?_⟩
  · rw [hostRead_cnt0, hostRead_cnt1]
    exact ⟨cnt0Word_toNat b, cnt1Word_toNat b⟩
  · obtain ⟨t, u, hst, htu, hu⟩ := step_command_then_tick hq
    refine ⟨t, u, hst, htu, ?_⟩
    rw [hu, decodeCmd_cntClear hw]
    rfl

end Sys2Proof.Machine
end

section
/-! The CRC register (R27). -/

namespace Sys2Proof.Machine

theorem hostRead_crc_toNat (p : Params) (b : Block) : (hostRead p b 0x010 4).toNat = b.crc.toNat := by
  rw [hostRead_crc, BitVec.toNat_setWidth_of_le (by decide)]

/-- A byte, full frame or not, leaves the CRC register (R119). -/
@[simp] theorem rxByte_crc (p : Params) (x : Byte) (b : Block) : (b.rxByte p x).crc = b.crc := by
  rcases rxByte_cases p x b with h | h | h <;> simp [h]

@[simp] theorem tick_crc (p : Params) (b : Block) : (b.tick p).crc = b.crc := by
  rcases tick_cases p b with h | h | h <;> simp [h]

/-- Only the two CRC commands touch the CRC register (R119). -/
theorem instrBlock_crc (p : Params) {i : Instr} (b : Block) (hinit : i ≠ .crcInit)
    (hbyte : ∀ x, i ≠ .crcByte x) : (instrBlock p i b).crc = b.crc := by
  cases i with
  | crcInit => exact absurd rfl hinit
  | crcByte x => exact absurd rfl (hbyte x)
  | _ => simp [instrBlock]

theorem hostWrite_crc (off n : Nat) (v : Word) (b : Block) : (hostWrite off n v b).crc = b.crc := by
  rcases hostWrite_cases off n v b with ⟨_, _, e⟩ | ⟨_, _, e⟩ | ⟨_, _, e⟩ | ⟨_, e⟩ <;> simp [e]

/-- Settles O29: a step does what its one event does, and `instrBlock_crc` and `hostWrite_crc` leave the two CRC
commands and reset. -/
theorem onlyCrcCommandsAndResetChangeTheCrc : Obligations.OnlyCrcCommandsAndResetChangeTheCrc := by
  unfold Obligations.OnlyCrcCommandsAndResetChangeTheCrc
  refine ⟨hostRead_crc_toNat, fun p => rfl,
    fun s n v => stepEvent_write_ignored s n v (by decide), fun s t hst hne => ?_⟩
  rw [eq_stepState_of_step hst] at hne
  rcases stepState_block_cases s with ⟨e, hev, he⟩ | ⟨_, he⟩ <;> rw [he] at hne
  · rw [hev]
    rcases eventBlock_cases s.params e s.block with
      ⟨i, hi, hb⟩ | ⟨a, rfl, _⟩ | ⟨off, n, v, _, _, hb⟩ | ⟨_, _, _, hb⟩
    · by_contra hnot
      simp only [not_or, not_exists, Option.bind_some, hi, Option.some_inj] at hnot
      obtain ⟨_, hinit, hbyte⟩ := hnot
      exact hne (by rw [hb, instrBlock_crc _ _ hinit hbyte])
    · exact .inl ⟨a, rfl⟩
    · exact absurd (by rw [hb, hostWrite_crc]) hne
    · exact absurd (by rw [hb]) hne
  · exact absurd rfl hne

end Sys2Proof.Machine
end

section
/-! Host accesses: what a read and an ignored write do, the reserved bits of the registers, and accesses that are
not admitted (R61, R62, R63). -/

namespace Sys2Proof.Machine

theorem stepEvent_read (s : State) (off n : Nat) :
    stepEvent (.access (.read off n)) s =
      .next { s with rdata := some (hostRead s.params s.block off n) } := rfl

/-- A write that is no command and leaves the block clears only the read-data output. -/
theorem stepEvent_write_of_hostWrite_eq {s : State} {off n : Nat} {v : Word}
    (hcmd : isCommandWrite off n = false) (hw : hostWrite off n v s.block = s.block) :
    stepEvent (.access (.write off n v)) s = .next { s with rdata := none } := by
  simp only [stepEvent, eventInstr, hcmd, Bool.false_eq_true, ↓reduceIte, applyEvent, State.withRdata_block, hw]
  rfl

theorem isCommandWrite_of_ne {off : Nat} (h : off ≠ 0x008) (n : Nat) : isCommandWrite off n = false := by
  rw [Bool.eq_false_iff, Ne, isCommandWrite_iff]
  exact fun hw => h hw.1

section NotAdmitted

variable {off n : Nat}

theorem admitted_eq_false (h : ¬ (n = 4 ∧ off % 4 = 0 ∧ off ≤ 0x1FC)) : admitted off n = false := by
  simpa [admitted, and_assoc] using h

variable (h : admitted off n = false)
include h

theorem hostRead_of_not_admitted (p : Params) (b : Block) : hostRead p b off n = 0 := by
  simp [hostRead, h]

theorem hostWrite_of_not_admitted (v : Word) (b : Block) : hostWrite off n v b = b := by
  simp [hostWrite, h]

theorem isCommandWrite_of_not_admitted : isCommandWrite off n = false := by
  simp [isCommandWrite, h]

end NotAdmitted

/-- Settles O16: neither `hostRead` nor `hostWrite` looks past `admitted`. -/
theorem accessesNotAdmittedDoNothing : Obligations.AccessesNotAdmittedDoNothing := by
  unfold Obligations.AccessesNotAdmittedDoNothing
  intro s off n v hnot
  have h := admitted_eq_false hnot
  constructor
  · rw [stepEvent_read, hostRead_of_not_admitted h]
  · exact stepEvent_write_of_hostWrite_eq (isCommandWrite_of_not_admitted h) (hostWrite_of_not_admitted h v _)

/-- Zeros in the three write-1-to-clear bits clear nothing (R26). -/
theorem clearSticky_eq_self {v : Word} (h : v.extractLsb' 4 3 = 0) (b : Block) : b.clearSticky v = b := by
  have hbit (i : Nat) (hi : i < 3) : v.getLsbD (4 + i) = false := by
    simpa only [BitVec.getLsbD_extractLsb', hi, decide_true, Bool.true_and, BitVec.ofNat_eq_ofNat,
      BitVec.getLsbD_zero] using congrArg (BitVec.getLsbD · i) h
  have h4 : v.getLsbD 4 = false := hbit 0 (by decide)
  have h5 : v.getLsbD 5 = false := hbit 1 (by decide)
  have h6 : v.getLsbD 6 = false := hbit 2 (by decide)
  simp only [Block.clearSticky, h4, h5, h6, Bool.not_false, Bool.and_true]

/-- Beside CTRL and CFG, only a 1 in STATUS bits 4 to 6 changes the block (R63). -/
theorem hostWrite_eq_self {off : Nat} {v : Word} (hctrl : off ≠ 0x000) (hcfg : off ≠ 0x004)
    (hsticky : off = 0x00C → v.extractLsb' 4 3 = 0) (n : Nat) (b : Block) : hostWrite off n v b = b := by
  rcases hostWrite_cases off n v b with ⟨e, _⟩ | ⟨e, _⟩ | ⟨e, _, hw⟩ | ⟨_, hw⟩
  · exact absurd e hctrl
  · exact absurd e hcfg
  · rw [hw, clearSticky_eq_self (hsticky e)]
  · exact hw

/-- Settles O15: a read keeps the block, so the second answers the same; a write goes by `hostWrite_eq_self`. -/
theorem hostReadsHaveNoSideEffects : Obligations.HostReadsHaveNoSideEffects := by
  unfold Obligations.HostReadsHaveNoSideEffects
  refine ⟨stepEvent_read, fun s t u off n hst htu => ?_, fun s off n v hctrl hcfg hcmd hsticky => ?_⟩
  · cases hst
    cases htu
    rfl
  · exact stepEvent_write_of_hostWrite_eq (isCommandWrite_of_ne hcmd n)
      (hostWrite_eq_self hctrl hcfg hsticky n s.block)

end Sys2Proof.Machine
end

section
/-! Reserved offsets and reserved bits (R62). -/

namespace Sys2Proof.Machine

theorem regAt_reserved {off : Nat} (hlo : 0x048 ≤ off) (hhi : off ≤ 0x0FC) : regAt off = none := by
  have hwindow : ¬ (0x100 ≤ off ∧ off ≤ 0x1FC ∧ off % 4 = 0) := by omega
  unfold regAt
  split
  case h_19 => exact if_neg hwindow
  all_goals omega

theorem hostRead_reserved (p : Params) (b : Block) {off : Nat} (n : Nat) (hlo : 0x048 ≤ off)
    (hhi : off ≤ 0x0FC) : hostRead p b off n = 0 := by
  simp [hostRead, regAt_reserved hlo hhi]

/-- CMD reads 0 at every width: 0 when admitted (R25), 0 when not (R61). -/
theorem hostRead_cmd (p : Params) (b : Block) (n : Nat) : hostRead p b 0x008 n = 0 := by
  unfold hostRead
  split <;> rfl

theorem hostRead_rxinfo (p : Params) (b : Block) : hostRead p b 0x020 4 = headWord b rxinfoWord := rfl

theorem extractLsb'_eq_zero_of_getLsbD {w : Word} {k m : Nat} (h : ∀ i < m, w.getLsbD (k + i) = false) :
    w.extractLsb' k m = 0 := by
  apply BitVec.eq_of_getLsbD_eq
  intro i hi
  simp [BitVec.getLsbD_extractLsb', h i hi]

theorem ctrlWord_reserved (b : Block) : (ctrlWord b).extractLsb' 4 28 = 0 := by
  refine extractLsb'_eq_zero_of_getLsbD fun i _ => ?_
  simp only [ctrlWord, BitVec.getLsbD_or, getLsbD_flagBit]
  grind

/-- The two fields of CFG end at bit 20 (R24). -/
theorem cfgWord_reserved (b : Block) : (cfgWord b).extractLsb' 21 11 = 0 := by
  have hlt : (cfgWord b).toNat < 2 ^ 21 := by
    have := b.incount.isLt
    have := b.quiet.isLt
    rw [cfgWord_toNat]
    omega
  refine extractLsb'_eq_zero_of_getLsbD fun i _ => ?_
  exact Nat.testBit_lt_two_pow (lt_of_lt_of_le hlt (Nat.pow_le_pow_right (by decide) (by omega)))

/-- Bit 15 lies between the flags of RXINFO and its address field (R31). -/
theorem rxinfoWord_getLsbD_15 (h : Frame) : (rxinfoWord h).getLsbD 15 = false := by
  simp only [rxinfoWord, BitVec.getLsbD_or, getLsbD_flagBit, BitVec.getLsbD_shiftLeft, BitVec.getLsbD_setWidth,
    BitVec.getLsbD_ofNat]
  simp

theorem headWord_getLsbD_false (b : Block) {field : Frame → Word} {i : Nat}
    (h : ∀ f, (field f).getLsbD i = false) : (headWord b field).getLsbD i = false := by
  unfold headWord
  split
  · exact BitVec.getLsbD_zero
  · exact h _

/-! The written bits that CTRL, CFG and STATUS take (R23, R24, R26). -/

theorem writeCtrl_masked (v : Word) (b : Block) : b.writeCtrl (v &&& 0xF) = b.writeCtrl v := by
  simp [Block.writeCtrl, Block.clearsEn]

theorem extractLsb'_and_mask (v m : Word) {k n : Nat} (h : m.extractLsb' k n = BitVec.allOnes n) :
    (v &&& m).extractLsb' k n = v.extractLsb' k n := by
  rw [BitVec.extractLsb'_and, h, BitVec.and_allOnes]

theorem writeCfg_masked (v : Word) (b : Block) : b.writeCfg (v &&& 0x1FFFFF) = b.writeCfg v := by
  rw [Block.writeCfg, extractLsb'_and_mask v _ (by decide), extractLsb'_and_mask v _ (by decide)]
  rfl

theorem clearSticky_masked (v : Word) (b : Block) : b.clearSticky (v &&& 0x70) = b.clearSticky v := by
  simp [Block.clearSticky]

theorem stepEvent_write_status (s : State) (v : Word) :
    stepEvent (.access (.write 0x00C 4 v)) s = .next ((s.withRdata none).withBlock (s.block.clearSticky v)) := rfl

/-- Settles O17: the reserved offsets by `hostRead_reserved`, the ignored writes by `stepEvent_write_ignored`,
and for each register its reserved bits as read and as written. -/
theorem reservedLocationsReadZeroAndIgnoreWrites : Obligations.ReservedLocationsReadZeroAndIgnoreWrites := by
  unfold Obligations.ReservedLocationsReadZeroAndIgnoreWrites
  rintro s ⟨hp, hb⟩
  refine ⟨fun off n hlo hhi => hostRead_reserved _ _ n hlo hhi,
    fun off n v hoff => stepEvent_write_ignored s n v (by omega), hostRead_cmd _ _,
    ⟨ctrlWord_reserved _, cfgWord_reserved _, ?_, ?_, statusWord_reserved hp hb, ?_⟩, fun v => ⟨?_, ?_, ?_⟩⟩
  · rw [hostRead_status, getLsbD_statusWord hp hb (by decide)]
    simp
  · rw [hostRead_status, getLsbD_statusWord hp hb (by decide)]
    simp
  · rw [hostRead_rxinfo]
    exact headWord_getLsbD_false _ rxinfoWord_getLsbD_15
  · rw [stepEvent_write_ctrl, stepEvent_write_ctrl, writeCtrl_masked]
  · rw [stepEvent_write_cfg, stepEvent_write_cfg, writeCfg_masked]
  · rw [stepEvent_write_status, stepEvent_write_status, clearSticky_masked]

end Sys2Proof.Machine
end

section
/-! The command map: every word selects the one row of its decoding (R87), and which words are reserved (R86, R164). -/

namespace Sys2Proof.Machine

/-! OP and the relay selector, bits 0 to 5, are all that a row of the opcode table or a mnemonic looks at. -/

/-- A row whose mask names bits 0 to 5 at most sees only those bits of a word. -/
theorem selects_low {r : CmdRow} (h : 0x3F &&& r.mask = r.mask) (w : Word) :
    r.selects (w &&& 0x3F) = r.selects w := by
  rw [CmdRow.selects, CmdRow.selects, BitVec.and_assoc, h]

theorem cmdTable_mask_low : ∀ r ∈ cmdTable, 0x3F &&& r.mask = r.mask := by decide

theorem filter_selects_low (w : Word) :
    (cmdTable.filter fun r => r.selects (w &&& 0x3F)) = cmdTable.filter fun r => r.selects w :=
  List.filter_congr fun r hr => selects_low (cmdTable_mask_low r hr) w

theorem mnemonic_decodeRelay_congr {w w' : Word} (hsel : cmdModeSel w = cmdModeSel w') :
    (decodeRelay w).mnemonic = (decodeRelay w').mnemonic := by
  unfold decodeRelay
  rw [hsel]
  split <;> rfl

theorem mnemonic_decodeCmd_congr {w w' : Word} (hop : cmdOp w = cmdOp w')
    (hsel : cmdModeSel w = cmdModeSel w') : (decodeCmd w).mnemonic = (decodeCmd w').mnemonic := by
  unfold decodeCmd
  rw [hop]
  split
  case h_3 => exact mnemonic_decodeRelay_congr hsel
  all_goals rfl

theorem mnemonic_decodeCmd_low (w : Word) : (decodeCmd (w &&& 0x3F)).mnemonic = (decodeCmd w).mnemonic :=
  mnemonic_decodeCmd_congr (extractLsb'_and_mask w _ (by decide)) (extractLsb'_and_mask w _ (by decide))

/-- The 64 settings of bits 0 to 5, each on its one row of the table. -/
theorem low_words_select_their_row : ∀ k : BitVec 6,
    (cmdTable.filter fun r => r.selects (k.setWidth 32)).map CmdRow.mnemonic =
      [(decodeCmd (k.setWidth 32)).mnemonic] := by
  decide

theorem and_low_eq_setWidth (w : Word) : w &&& 0x3F = (w.setWidth 6).setWidth 32 := by
  apply BitVec.eq_of_toNat_eq
  rw [BitVec.toNat_and, BitVec.toNat_setWidth_of_le (by decide), BitVec.toNat_setWidth]
  exact Nat.and_two_pow_sub_one_eq_mod _ 6

/-- Settles O2: neither side looks past bits 0 to 5, and `low_words_select_their_row` goes through those. -/
theorem everyWordSelectsExactlyOneRow : Obligations.EveryWordSelectsExactlyOneRow := by
  unfold Obligations.EveryWordSelectsExactlyOneRow
  intro w
  rw [← filter_selects_low, ← mnemonic_decodeCmd_low, and_low_eq_setWidth]
  exact low_words_select_their_row _

/-! The reserved commands. -/

/-- The reserved commands: ENC_RELAY with selector 3, and OP 0x9 to 0xF (R86, R164). -/
def ReservedCmd (i : Instr) : Prop :=
  i = .encRelayRsv ∨ i = .reserved9 ∨ (∃ x, i = .reservedAB x) ∨ (∃ x, i = .reservedCF x)

/-- R164: of the relay selectors only 3 is reserved. -/
theorem reservedCmd_decodeRelay_iff (w : Word) : ReservedCmd (decodeRelay w) ↔ cmdModeSel w = 3 := by
  rw [← BitVec.toNat_inj]
  change _ ↔ (cmdModeSel w).toNat = 3
  unfold decodeRelay
  split
  case h_4 =>
    refine iff_of_true (.inl rfl) ?_
    simp only [imp_false] at *
    omega
  all_goals simp [ReservedCmd, *]

/-- R86: a word is reserved by its OP, or by the selector of ENC_RELAY. -/
theorem reservedCmd_decodeCmd_iff (w : Word) :
    ReservedCmd (decodeCmd w) ↔ 0x9 ≤ (cmdOp w).toNat ∨ (cmdOp w = 0x2 ∧ cmdModeSel w = 3) := by
  rw [← BitVec.toNat_inj (x := cmdOp w)]
  unfold decodeCmd
  split
  case h_3 h => simp [reservedCmd_decodeRelay_iff, h]
  case h_13 =>
    refine iff_of_true (.inr (.inr (.inr ⟨_, rfl⟩))) (.inl ?_)
    simp only [imp_false] at *
    omega
  all_goals simp [ReservedCmd, *]

/-- R224: a reserved command raises CMD_RESERVED, which sets CMDERR alone. -/
theorem exec_of_reservedCmd {i : Instr} (h : ReservedCmd i) (s : State) :
    exec i s = .next { s with block := { s.block with cmderr := true } } := by
  rcases h with rfl | rfl | ⟨x, rfl⟩ | ⟨x, rfl⟩ <;> exact exec_eq _ s

/-- Settles O35: the reserved words by `reservedCmd_decodeCmd_iff`, what they do by `exec_of_reservedCmd`. -/
theorem reservedCommandsOnlySetCmderr : Obligations.ReservedCommandsOnlySetCmderr := by
  unfold Obligations.ReservedCommandsOnlySetCmderr
  exact ⟨reservedCmd_decodeCmd_iff, fun _ s h => exec_of_reservedCmd h s⟩

end Sys2Proof.Machine
end

section
/-! The CRC engine: the shift step and the byte update are injective, so changing one byte changes the CRC, and
only its own two bytes take a CRC to 0 (R115, R116). -/

namespace Sys2Proof.Machine

/-- Bit by bit, a shift step moves every bit down and XORs the mask where bit 0 was set (R110). -/
theorem getLsbD_crcShift (c : Half) (i : Nat) :
    (crcShift c).getLsbD i = (c.getLsbD (i + 1) ^^ (c.getLsbD 0 && (0xA001#16).getLsbD i)) := by
  unfold crcShift
  cases h : c.getLsbD 0 <;> simp [BitVec.getLsbD_ushiftRight, Nat.add_comm 1 i]

/-- Bit 15 of the result tells whether the mask was applied, so the step can be undone (R115). -/
theorem crcShift_injective : Function.Injective crcShift := by
  intro c d h
  have hbit (i : Nat) : (crcShift c).getLsbD i = (crcShift d).getLsbD i := by rw [h]
  simp only [getLsbD_crcShift] at hbit
  have hmask : c.getLsbD 0 = d.getLsbD 0 := by simpa using hbit 15
  apply BitVec.eq_of_getLsbD_eq
  intro i _
  cases i with
  | zero => exact hmask
  | succ i => simpa only [hmask, Bool.xor_left_inj] using hbit i

theorem crcShifts_injective (n : Nat) : Function.Injective (crcShifts n) := by
  induction n with
  | zero => exact fun _ _ h => h
  | succ n ih => exact ih.comp crcShift_injective

@[simp] theorem crcUpdate_left_inj (c d : Half) (x : Byte) : crcUpdate c x = crcUpdate d x ↔ c = d := by
  rw [crcUpdate, crcUpdate, (crcShifts_injective 8).eq_iff, BitVec.xor_left_inj]

@[simp] theorem crcUpdate_right_inj (c : Half) (x y : Byte) : crcUpdate c x = crcUpdate c y ↔ x = y := by
  rw [crcUpdate, crcUpdate, (crcShifts_injective 8).eq_iff, BitVec.xor_right_inj]
  exact ⟨fun h => by simpa using congrArg (BitVec.setWidth 8) h, congrArg _⟩

/-- Two registers that differ stay different whatever bytes follow (R116). -/
@[simp] theorem foldl_crcUpdate_inj (s : Frame) (c d : Half) :
    s.foldl crcUpdate c = s.foldl crcUpdate d ↔ c = d := by
  induction s generalizing c d with
  | nil => rfl
  | cons x s ih => simp [ih]

theorem crc16_modify (s : Frame) {k : Nat} (hk : k < s.length) (f : Byte → Byte) :
    crc16 (s.modify k f) = (s.drop (k + 1)).foldl crcUpdate (crcUpdate (crc16 (s.take k)) (f s[k])) := by
  rw [List.modify_eq_take_cons_drop hk, crc16_append, List.foldl_cons]

/-- Changing one byte changes the CRC (R116). -/
theorem crc16_modify_eq_iff (s : Frame) {k : Nat} (hk : k < s.length) (f : Byte → Byte) :
    crc16 (s.modify k f) = crc16 s ↔ f s[k] = s[k] := by
  have hs : crc16 s = crc16 (s.modify k id) := by rw [List.modify_id]
  rw [hs, crc16_modify s hk, crc16_modify s hk, foldl_crcUpdate_inj, crcUpdate_right_inj, id]

/-- A clear bit 0 shifts out without the mask (R115). -/
theorem crcShift_shiftLeft_succ (x : Byte) {n : Nat} (hn : n < 8) :
    crcShift (x.setWidth 16 <<< (n + 1)) = x.setWidth 16 <<< n := by
  apply BitVec.eq_of_getLsbD_eq
  intro i hi
  have hzero : (x.setWidth 16 <<< (n + 1)).getLsbD 0 = false := by simp
  rw [getLsbD_crcShift, hzero]
  simp only [BitVec.getLsbD_shiftLeft, BitVec.getLsbD_setWidth, Bool.false_and, Bool.xor_false,
    Nat.add_sub_add_right, Nat.add_lt_add_iff_right]
  by_cases htop : i + 1 < 16
  · simp [htop, hi]
  · simp [BitVec.getLsbD_of_ge x (i - n) (by omega)]

theorem crcShifts_shiftLeft (x : Byte) (n : Nat) (hn : n ≤ 8) :
    crcShifts n (x.setWidth 16 <<< n) = x.setWidth 16 := by
  induction n with
  | zero => exact BitVec.shiftLeft_zero _
  | succ n ih => rw [crcShifts, crcShift_shiftLeft_succ x hn, ih (by omega)]

/-- Fed with its own low byte, the register is left with its high byte (R115). -/
theorem crcUpdate_pair_low (l h : Byte) :
    crcUpdate (l.setWidth 16 ||| (h.setWidth 16 <<< 8)) l = h.setWidth 16 := by
  have hxor : (l.setWidth 16 ||| (h.setWidth 16 <<< 8)) ^^^ l.setWidth 16 = h.setWidth 16 <<< 8 := by
    apply BitVec.eq_of_getLsbD_eq
    intro i _
    simp only [BitVec.getLsbD_xor, BitVec.getLsbD_or, BitVec.getLsbD_shiftLeft, BitVec.getLsbD_setWidth]
    by_cases hi : i < 8
    · simp [hi]
    · simp [BitVec.getLsbD_of_ge l i (by omega)]
  rw [crcUpdate, hxor, crcShifts_shiftLeft h 8 le_rfl]

theorem crcUpdate_setWidth_self (x : Byte) : crcUpdate (x.setWidth 16) x = 0 := by
  rw [crcUpdate, BitVec.xor_self]
  rfl

/-- Two bytes take the register to 0 exactly when it held the word they make, low byte first (R115). -/
theorem foldl_crcUpdate_pair_eq_zero_iff (c : Half) (l h : Byte) :
    [l, h].foldl crcUpdate c = 0 ↔ c = l.setWidth 16 ||| (h.setWidth 16 <<< 8) := by
  have hzero : [l, h].foldl crcUpdate (l.setWidth 16 ||| (h.setWidth 16 <<< 8)) = 0 := by
    simp only [List.foldl_cons, List.foldl_nil, crcUpdate_pair_low, crcUpdate_setWidth_self]
  rw [← hzero, foldl_crcUpdate_inj]

/-- R115: the CRC takes itself to 0. -/
@[simp] theorem crc16_crcAppend (s : Frame) : crc16 (crcAppend s) = 0 := by
  rw [crcAppend, crc16_append, foldl_crcUpdate_pair_eq_zero_iff, lowByte_or_highByte]

/-- A sequence of two bytes or more is its body and the two bytes of its trailer (R114). -/
theorem crcBody_append_last {s : Frame} (hs : 2 ≤ s.length) :
    crcBody s ++ [byteAt s (s.length - 2), byteAt s (s.length - 1)] = s := by
  obtain ⟨n, hn⟩ : ∃ n, s.length = n + 2 := ⟨s.length - 2, by omega⟩
  have hdrop : s.drop n = [byteAt s n, byteAt s (n + 1)] := by
    rw [List.drop_eq_getElem_cons (by omega), List.drop_eq_getElem_cons (by omega),
      List.drop_eq_nil_of_le (by omega), byteAt, byteAt, List.getD_eq_getElem, List.getD_eq_getElem]
  rw [crcBody, hn, Nat.add_sub_cancel, Nat.add_sub_assoc (by decide), ← hdrop, List.take_append_drop]

/-- `verify` is the test that the CRC of the whole sequence is 0 (R115). -/
theorem crcVerify_eq {s : Frame} (hs : 2 ≤ s.length) : crcVerify s = (crc16 s == 0) := by
  have hiff : crc16 s = 0 ↔ crc16 (crcBody s) = crcTrailer s := by
    conv_lhs => rw [← crcBody_append_last hs, crc16_append]
    exact foldl_crcUpdate_pair_eq_zero_iff _ _ _
  rw [crcVerify, if_neg (by omega), Bool.eq_iff_iff, beq_iff_eq, beq_iff_eq, hiff]

/-- Settles O26: the residue by `crc16_crcAppend`, `verify` by `crcVerify_eq`. -/
theorem crcResidueIsZero : Obligations.CrcResidueIsZero := by
  unfold Obligations.CrcResidueIsZero
  exact ⟨crc16_crcAppend, fun _ => crcVerify_eq⟩

/-- Settles O27: by `crc16_modify_eq_iff` the CRC of the changed sequence is no longer 0. -/
theorem singleByteErrorsAreDetected : Obligations.SingleByteErrorsAreDetected := by
  unfold Obligations.SingleByteErrorsAreDetected
  intro s k e hk he
  rw [crcVerify_eq (by simp), beq_eq_false_iff_ne, ← crc16_crcAppend s, Ne, crc16_modify_eq_iff _ hk]
  simpa using he

end Sys2Proof.Machine
end

section
/-! The host CRC unit: CRC_INIT and CRC_BYTE (R117, R118). -/

namespace Sys2Proof.Machine

theorem decodeCmd_crcInit {w : Word} (h : cmdOp w = 0x4) : decodeCmd w = .crcInit := by
  simp [decodeCmd, h]

theorem decodeCmd_crcByte {w : Word} (h : cmdOp w = 0x5) : decodeCmd w = .crcByte (cmdF0 w) := by
  simp [decodeCmd, h]

/-- A run of CRC_BYTE feeds the bytes into the CRC register and changes nothing else (R118). -/
theorem runInstrs_crcByte (bs : Frame) (s : State) :
    runInstrs (bs.map .crcByte) s =
      .next { s with block := { s.block with crc := bs.foldl crcUpdate s.block.crc } } := by
  induction bs generalizing s with
  | nil => rfl
  | cons x bs ih => simp only [List.map_cons, runInstrs, exec_eq, ih]; rfl

theorem runInstrs_crcInit_crcByte (bs : Frame) (s : State) :
    runInstrs (.crcInit :: bs.map .crcByte) s = .next { s with block := { s.block with crc := crc16 bs } } := by
  simp only [runInstrs, exec_eq, runInstrs_crcByte]
  rfl

/-- Settles O28: the run is `runInstrs_crcInit_crcByte`, the test of the register is `crcVerify_eq`. -/
theorem hostRunsTheCrcOnItsBytes : Obligations.HostRunsTheCrcOnItsBytes := by
  unfold Obligations.HostRunsTheCrcOnItsBytes
  refine ⟨fun w => ⟨decodeCmd_crcInit, decodeCmd_crcByte⟩, fun s => ⟨exec_eq _ s, rfl⟩, fun x s => exec_eq _ s,
    fun bs s => ⟨_, runInstrs_crcInit_crcByte bs s, rfl, rfl, fun hlen => ?_⟩⟩
  rw [crcVerify_eq (by omega), beq_iff_eq]

end Sys2Proof.Machine
end

section
/-! Everything but the two CRC commands commutes with setting the CRC register (R119). -/

namespace Sys2Proof.Machine

/-- The same block with another host CRC register. -/
def Block.withCrc (c : Half) (b : Block) : Block := { b with crc := c }

section WithCrc

variable (p : Params) (b : Block) (c : Half)

theorem raise_withCrc (e : ErrorEvent) : (b.withCrc c).raise e = (b.raise e).withCrc c := by
  cases e <;> rfl

theorem enqueue_withCrc (f : Frame) : (b.withCrc c).enqueue p f = (b.enqueue p f).withCrc c := by
  simp only [Block.enqueue, apply_ite (Block.withCrc c), ← raise_withCrc]
  rfl

theorem closeFrame_withCrc : (b.withCrc c).closeFrame p = (b.closeFrame p).withCrc c := by
  simp only [Block.closeFrame, apply_ite (Block.withCrc c), ← raise_withCrc, ← enqueue_withCrc]
  rfl

theorem rxByte_withCrc (x : Byte) : (b.withCrc c).rxByte p x = (b.rxByte p x).withCrc c := by
  simp only [Block.rxByte, apply_ite (Block.withCrc c), ← closeFrame_withCrc]
  rfl

theorem tick_withCrc : (b.withCrc c).tick p = (b.tick p).withCrc c := by
  simp only [Block.tick, apply_ite (Block.withCrc c), ← closeFrame_withCrc]
  rfl

/-- An instruction that is no CRC command does the same whatever the CRC register holds (R119). -/
theorem instrBlock_withCrc {i : Instr} (hinit : i ≠ .crcInit) (hbyte : ∀ x, i ≠ .crcByte x) :
    instrBlock p i (b.withCrc c) = (instrBlock p i b).withCrc c := by
  cases i with
  | crcInit => exact absurd rfl hinit
  | crcByte x => exact absurd rfl (hbyte x)
  | rxByte x => exact rxByte_withCrc p b c x
  | tick => exact tick_withCrc p b c
  | wrqRead a | wrqRelay a | wrqIlock a | wrsRead a | wrsAck a | wrsOther a => exact rxByte_withCrc p b c a
  | _ => rfl

end WithCrc

theorem exec_withCrc {i : Instr} (hinit : i ≠ .crcInit) (hbyte : ∀ x, i ≠ .crcByte x) (s : State) (c : Half) :
    exec i (s.withBlock (s.block.withCrc c)) =
      .next ((instrState i s).withBlock ((instrState i s).block.withCrc c)) := by
  rw [exec_eq, instrState, State.withBlock_params, State.withBlock_block, State.withBlock_inputs,
    instrBlock_withCrc _ _ _ hinit hbyte]
  rfl

/-- Settles O30: the block keeps the register by `instrBlock_crc` and does not read it by `instrBlock_withCrc`. -/
theorem encoderAndDecoderNeverUseTheCrcRegister : Obligations.EncoderAndDecoderNeverUseTheCrcRegister := by
  unfold Obligations.EncoderAndDecoderNeverUseTheCrcRegister
  intro i s t c hinit hbyte hst
  obtain rfl : instrState i s = t := by simpa [exec_eq] using hst
  exact ⟨instrBlock_crc s.params s.block hinit hbyte, exec_withCrc hinit hbyte s c⟩

end Sys2Proof.Machine
end

section
/-! A byte, a tick, RX_ABORT and a CFG write on the delimiter (R131, R132, R140, R141). -/

namespace Sys2Proof.Machine

section Delimiter

variable {p : Params} {b : Block}

theorem rxByte_of_disabled (h : b.en = false) (x : Byte) : b.rxByte p x = b := by
  simp [Block.rxByte, h]

theorem rxByte_of_room (hen : b.en = true) (hroom : b.asm.length + 1 ≠ p.maxFrame) (x : Byte) :
    b.rxByte p x = b.acceptByte x := by
  simp [Block.rxByte, hen, hroom]

theorem rxByte_of_full (hen : b.en = true) (hfull : b.asm.length + 1 = p.maxFrame) (x : Byte) :
    b.rxByte p x = (b.acceptByte x).closeFrame p := by
  simp [Block.rxByte, hen, hfull]

/-- A frame has room for a second byte (R8), so the first byte after idle never closes it. -/
theorem rxByte_of_idle (hp : p.Legal) (hen : b.en = true) (hidle : b.asm = []) (x : Byte) :
    b.rxByte p x = b.acceptByte x := by
  obtain ⟨⟨hcap, _⟩, _⟩ := hp
  refine rxByte_of_room hen ?_ x
  rw [hidle, List.length_nil]
  omega

theorem tick_of_idle (h : b.asm = []) : b.tick p = b := by
  simp [Block.tick, Block.assembling, h]

theorem tick_of_short (h : b.asm ≠ []) (hs : (satInc b.sil).toNat < b.quiet.toNat) :
    b.tick p = b.countSilence := by
  simp [Block.tick, (assembling_iff b).2 h, Nat.not_le_of_lt hs]

theorem tick_of_quiet (h : b.asm ≠ []) (hs : b.quiet.toNat ≤ (satInc b.sil).toNat) :
    b.tick p = b.countSilence.closeFrame p := by
  simp [Block.tick, (assembling_iff b).2 h, hs]

end Delimiter

/-- Settles O37: the three cases of `Block.rxByte`. -/
theorem rxByteExtendsTheFrame : Obligations.RxByteExtendsTheFrame := by
  unfold Obligations.RxByteExtendsTheFrame
  intro x s
  rw [exec_eq, instrState, instrBlock]
  refine ⟨fun hen => ?_, fun hen hroom => ?_, fun hen hfull => ?_⟩
  · rw [rxByte_of_disabled hen]
    rfl
  · rw [rxByte_of_room hen hroom]
    rfl
  · rw [rxByte_of_full hen hfull]
    rfl

/-- Settles O38: the three cases of `Block.tick`, with `satInc` for the silence. -/
theorem tickCountsSilence : Obligations.TickCountsSilence := by
  unfold Obligations.TickCountsSilence
  intro s
  rw [exec_eq, instrState, instrBlock]
  refine ⟨fun hidle => ?_, fun hasm => ⟨satInc s.block.sil, satInc_toNat _, fun hshort => ?_, fun hquiet => ?_⟩⟩
  · rw [tick_of_idle hidle]
    rfl
  · rw [tick_of_short hasm hshort]
    rfl
  · rw [tick_of_quiet hasm hquiet]
    rfl

theorem decodeCmd_rxAbort {w : Word} (h : cmdOp w = 0x7) : decodeCmd w = .rxAbort := by
  simp [decodeCmd, h]

/-- Settles O40: RX_ABORT is `discardAsm`, after which the block is idle (`rxByte_of_idle`). -/
theorem rxAbortDiscardsTheFrame : Obligations.RxAbortDiscardsTheFrame := by
  unfold Obligations.RxAbortDiscardsTheFrame
  refine ⟨fun w => decodeCmd_rxAbort, fun s => exec_eq .rxAbort s, fun s x hp hen => ?_⟩
  have hrun :
      runInstrs [.rxAbort, .rxByte x] s = .next (s.withBlock (s.block.discardAsm.rxByte s.params x)) := rfl
  rw [hrun, rxByte_of_idle hp (by simpa using hen) (Block.discardAsm_asm _)]
  rfl

theorem stepEvent_tick (s : State) :
    stepEvent .tick s = .next ((s.withRdata none).withBlock (s.block.tick s.params)) := rfl

/-- Settles O44: the write leaves ASM and SIL to the tick, which closes or counts by the new QUIET. -/
theorem quietWriteActsAtTheNextTick : Obligations.QuietWriteActsAtTheNextTick := by
  unfold Obligations.QuietWriteActsAtTheNextTick
  intro s v hasm
  refine ⟨_, _, stepEvent_write_cfg s v, stepEvent_tick _, rfl, ?_⟩
  simp only [State.withBlock_block, State.withBlock_params, State.withRdata_params, ← satInc_toNat]
  refine ⟨fun hquiet => ?_, fun hshort => ?_⟩
  · rw [tick_of_quiet (b := s.block.writeCfg v) hasm hquiet, closeFrame_asm]
  · rw [tick_of_short (b := s.block.writeCfg v) hasm hshort]
    rfl

end Sys2Proof.Machine
end

section
/-! What closing a frame does to the FIFO, the error bits and the counters (R133, R134, R135, R222, R223). -/

namespace Sys2Proof.Machine

theorem frameCrcOk_iff (f : Frame) : frameCrcOk f = true ↔ 4 ≤ f.length ∧ crcVerify f = true := by
  simp [frameCrcOk, frameCrcMatch, frameRunt, and_comm]

/-- The frame in ASM gets to the FIFO test of a close: it is valid, or DROPBAD is 0 (R133, R134). -/
abbrev Block.KeepsFrame (b : Block) : Prop := frameCrcOk b.asm = true ∨ b.dropbad = false

/-- What a close leaves in every element it touches: the five cases of `closeFrame_cases` in one equation. -/
theorem closeFrame_eq (p : Params) (b : Block) :
    b.closeFrame p = { b with
      asm := []
      sil := 0
      cntFrames := satInc b.cntFrames
      crcerr := if frameCrcOk b.asm then b.crcerr else true
      cntCrcerr := if frameCrcOk b.asm then b.cntCrcerr else satInc b.cntCrcerr
      fifo := if b.KeepsFrame ∧ ¬ b.fifo.length = p.rxqDepth then b.fifo ++ [b.asm] else b.fifo
      droperr := if b.KeepsFrame ∧ b.fifo.length = p.rxqDepth then true else b.droperr
      cntDrop := if b.KeepsFrame ∧ b.fifo.length = p.rxqDepth then satInc b.cntDrop else b.cntDrop } := by
  rcases closeFrame_cases p b with
    ⟨hv, hf, e⟩ | ⟨hv, hf, e⟩ | ⟨hv, hd, e⟩ | ⟨hv, hd, hf, e⟩ | ⟨hv, hd, hf, e⟩
  all_goals
    rw [e]
    simp [*, Block.raise, Block.takeFrame, Block.pushFifo]

/-- Settles O39: every clause is a field of `closeFrame_eq`. -/
theorem closeFrameStoresFiltersOrDrops : Obligations.CloseFrameStoresFiltersOrDrops := by
  unfold Obligations.CloseFrameStoresFiltersOrDrops
  intro p b
  simp only [← frameCrcOk_iff, closeFrame_eq, ← satInc_toNat]
  refine ⟨trivial, trivial, trivial, fun hv => ?_, fun hv => ?_, fun h => if_pos h, fun h => if_neg h,
    fun h => ?_, fun h => ?_, trivial⟩
  · exact ⟨if_pos hv, if_pos hv⟩
  · exact ⟨if_neg hv, congrArg _ (if_neg hv)⟩
  · exact ⟨if_pos h, congrArg _ (if_pos h)⟩
  · exact ⟨if_neg h, if_neg h⟩

end Sys2Proof.Machine
end

section
/-! The gap rule (R136): between two bytes only ticks move the delimiter, so the silence counts them. -/

namespace Sys2Proof.Machine

theorem eventBlock_tick (p : Params) (b : Block) : eventBlock p .tick b = b.tick p := rfl

theorem eventBlock_rxByte (p : Params) (x : Byte) (b : Block) : eventBlock p (.rxByte x) b = b.rxByte p x := rfl

/-- Over a run of events the block goes its own way: no event looks at the rest of the state. -/
theorem foldl_eventState_block (es : List Event) (s : State) :
    (es.foldl (fun s e => eventState e s) s).block = es.foldl (fun b e => eventBlock s.params e b) s.block := by
  induction es generalizing s with
  | nil => rfl
  | cons e es ih => rw [List.foldl_cons, ih, eventState_params, eventState_block, List.foldl_cons]

theorem foldl_eventState_params (es : List Event) (s : State) :
    (es.foldl (fun s e => eventState e s) s).params = s.params := by
  induction es generalizing s with
  | nil => rfl
  | cons e es ih => rw [List.foldl_cons, ih, eventState_params]

theorem tickCount_cons_tick (es : List Event) : tickCount (.tick :: es) = tickCount es + 1 :=
  List.count_cons_self

theorem tickCount_cons_of_ne {e : Event} (h : e ≠ .tick) (es : List Event) : tickCount (e :: es) = tickCount es :=
  List.count_cons_of_ne h

/-- Every command word decodes to a command (R87). -/
theorem decodeCmd_channel (w : Word) : (decodeCmd w).channel = .command := by
  unfold decodeCmd
  split
  case h_3 =>
    unfold decodeRelay
    split <;> rfl
  all_goals rfl

/-! Events that leave the delimiter alone. -/

/-- The two blocks agree in all that a byte or a tick looks at to place a frame's end: EN, ASM, SIL and QUIET. -/
structure Block.SameDelimiter (b c : Block) : Prop where
  en : c.en = b.en
  asm : c.asm = b.asm
  sil : c.sil = b.sil
  quiet : c.quiet = b.quiet

theorem instrBlock_sameDelimiter (p : Params) (b : Block) {i : Instr} (hi : i.channel = .command)
    (hne : i ≠ .rxAbort) : b.SameDelimiter (instrBlock p i b) := by
  cases i with
  | rxAbort => exact absurd rfl hne
  | rxByte | tick | wrqRead | wrqRelay | wrqIlock | wrsRead | wrsAck | wrsOther => cases hi
  | _ => exact ⟨rfl, rfl, rfl, rfl⟩

theorem writeCtrl_sameDelimiter {b : Block} {v : Word} (hen : b.en = true) (hv : v.getLsbD 0 = true) :
    b.SameDelimiter (b.writeCtrl v) := by
  have hkeep : b.clearsEn v = false := by simp [Block.clearsEn, hv]
  exact ⟨hv.trans hen.symm, by simp [hkeep], by simp [hkeep], rfl⟩

theorem hostWrite_sameDelimiter {b : Block} {off n : Nat} {v : Word} (hen : b.en = true)
    (h : gapEvent (.access (.write off n v)) = true) : b.SameDelimiter (hostWrite off n v b) := by
  rcases hostWrite_cases off n v b with ⟨rfl, rfl, e⟩ | ⟨rfl, rfl, _⟩ | ⟨_, _, e⟩ | ⟨_, e⟩
  · rw [e]
    refine writeCtrl_sameDelimiter hen ?_
    simpa [gapEvent, admitted, regAt] using h
  · simp [gapEvent, admitted, regAt] at h
  all_goals
    rw [e]
    exact ⟨rfl, rfl, rfl, rfl⟩

theorem ne_rxAbort_of_gapEvent {off n : Nat} {v : Word} (hcmd : isCommandWrite off n = true)
    (h : gapEvent (.access (.write off n v)) = true) : decodeCmd v ≠ .rxAbort := by
  obtain ⟨rfl, rfl⟩ := (isCommandWrite_iff off n).1 hcmd
  simpa [gapEvent, admitted, regAt] using h

/-- The only instructions the gap rule admits beside the tick are commands other than RX_ABORT (R136). -/
theorem command_of_gapEvent {e : Event} {i : Instr} (h : gapEvent e = true) (htick : e ≠ .tick)
    (hi : eventInstr e = some i) : i.channel = .command ∧ i ≠ .rxAbort := by
  cases e with
  | reset | rxByte => cases h
  | tick => exact absurd rfl htick
  | access a =>
    cases a with
    | read off n => cases hi
    | write off n v =>
      simp only [eventInstr] at hi
      split at hi
      · next hcmd =>
        cases hi
        exact ⟨decodeCmd_channel v, ne_rxAbort_of_gapEvent hcmd h⟩
      · cases hi

/-- Of the events the gap rule admits, only a tick moves the delimiter (R136). -/
theorem eventBlock_sameDelimiter (p : Params) {b : Block} {e : Event} (hen : b.en = true)
    (h : gapEvent e = true) (htick : e ≠ .tick) : b.SameDelimiter (eventBlock p e b) := by
  rcases eventBlock_cases p e b with ⟨i, hi, hb⟩ | ⟨a, rfl, _⟩ | ⟨off, n, v, rfl, _, hb⟩ | ⟨off, n, rfl, hb⟩
  · obtain ⟨hcommand, hne⟩ := command_of_gapEvent h htick hi
    rw [hb]
    exact instrBlock_sameDelimiter p b hcommand hne
  · cases h
  · rw [hb]
    exact hostWrite_sameDelimiter hen h
  · rw [hb]
    exact ⟨rfl, rfl, rfl, rfl⟩

/-! The invariant of the gap. -/

/-- `n` ticks after the last byte of the frame `f`: short of the window the frame is in ASM and SIL is `n`; from
then on the block is idle. -/
structure Block.SilentFor (q : Half) (f : Frame) (n : Nat) (b : Block) : Prop where
  en : b.en = true
  quiet : b.quiet = q
  pending : n < q.toNat → b.asm = f ∧ b.sil.toNat = n
  closed : q.toNat ≤ n → b.asm = []

section Gap

variable {p : Params} {b : Block} {q : Half} {f : Frame} {n : Nat}

theorem Block.SilentFor.of_sameDelimiter (h : b.SilentFor q f n) {c : Block} (hc : b.SameDelimiter c) :
    c.SilentFor q f n :=
  ⟨hc.en.trans h.en, hc.quiet.trans h.quiet, by rw [hc.asm, hc.sil]; exact h.pending,
    by rw [hc.asm]; exact h.closed⟩

theorem Block.SilentFor.tick (h : b.SilentFor q f n) (hf : f ≠ []) : (b.tick p).SilentFor q f (n + 1) := by
  obtain ⟨hen, rfl, hpending, hclosed⟩ := h
  by_cases hn : n < b.quiet.toNat
  · obtain ⟨rfl, rfl⟩ := hpending hn
    have hlt := b.quiet.isLt
    have hsil : (satInc b.sil).toNat = b.sil.toNat + 1 := by
      rw [satInc_toNat]
      omega
    by_cases hnext : b.sil.toNat + 1 < b.quiet.toNat
    · rw [tick_of_short hf (by omega)]
      exact ⟨hen, rfl, fun _ => ⟨rfl, hsil⟩, fun hle => absurd hnext (by omega)⟩
    · rw [tick_of_quiet hf (by omega)]
      exact ⟨by simpa using hen, by simp, fun hlt => absurd hlt hnext, fun _ => closeFrame_asm _ _⟩
  · have hidle := hclosed (by omega)
    rw [tick_of_idle hidle]
    exact ⟨hen, rfl, fun hlt => absurd hlt (by omega), fun _ => hidle⟩

/-- Over the events of a gap the silence counts the ticks (R136). -/
theorem Block.SilentFor.foldl_eventBlock (hf : f ≠ []) (es : List Event) (hes : ∀ e ∈ es, gapEvent e = true)
    (h : b.SilentFor q f n) :
    (es.foldl (fun b e => eventBlock p e b) b).SilentFor q f (n + tickCount es) := by
  induction es generalizing b n with
  | nil => exact h
  | cons e es ih =>
    obtain ⟨he, hrest⟩ := List.forall_mem_cons.1 hes
    by_cases htick : e = .tick
    · subst htick
      rw [List.foldl_cons, eventBlock_tick, tickCount_cons_tick, ← Nat.add_assoc, Nat.add_right_comm]
      exact ih hrest (h.tick hf)
    · rw [List.foldl_cons, tickCount_cons_of_ne htick]
      exact ih hrest (h.of_sameDelimiter (eventBlock_sameDelimiter p h.en he htick))

theorem acceptByte_silentFor (hen : b.en = true) (hquiet : 1 ≤ b.quiet.toNat) (x : Byte) :
    (b.acceptByte x).SilentFor b.quiet (b.asm ++ [x]) 0 :=
  ⟨hen, rfl, fun _ => ⟨rfl, rfl⟩, fun hle => absurd hle (by omega)⟩

end Gap

/-- The block after a byte that leaves room in its frame, and the events of a gap (R136). -/
theorem silentFor_of_byte_then_gap {s : State} (x : Byte) {es : List Event} (hs : s.Inv)
    (hen : s.block.en = true) (hroom : s.block.asm.length + 1 < s.params.maxFrame)
    (hes : ∀ e ∈ es, gapEvent e = true) :
    ∃ t, runEvents (.rxByte x :: es) s = .next t ∧ t.params = s.params ∧
      t.block.SilentFor s.block.quiet (s.block.asm ++ [x]) (tickCount es) := by
  obtain ⟨_, _, _, _, _, ⟨hquiet, _⟩, _⟩ := hs
  refine ⟨_, runEvents_eq _ s, foldl_eventState_params _ s, ?_⟩
  rw [foldl_eventState_block, List.foldl_cons, eventBlock_rxByte, rxByte_of_room hen (Nat.ne_of_lt hroom),
    ← Nat.zero_add (tickCount es)]
  exact (acceptByte_silentFor hen hquiet x).foldl_eventBlock (by simp) es hes

/-- Settles O41: after the gap the block is idle or still holds the first byte (`silentFor_of_byte_then_gap`), and
the second byte is one of the cases of `Block.rxByte`. -/
theorem gapRuleSplitsFramesBySilence : Obligations.GapRuleSplitsFramesBySilence := by
  unfold Obligations.GapRuleSplitsFramesBySilence
  intro s b1 b2 es hs hen hroom hes
  obtain ⟨t, hrun, hparams, htick⟩ := silentFor_of_byte_then_gap b1 hs hen hroom hes
  refine ⟨t, _, hrun, stepEvent_eq _ t, fun hge => ?_, fun hlt => ?_⟩
  all_goals rw [eventState_block, eventBlock_rxByte, hparams]
  · have hidle := htick.closed hge
    rw [rxByte_of_idle hs.1 htick.en hidle, Block.acceptByte_asm, hidle]
    exact ⟨rfl, rfl⟩
  · obtain ⟨hasm, -⟩ := htick.pending hlt
    have hlen : t.block.asm.length + 1 = s.block.asm.length + 2 := by simp [hasm]
    have happend : t.block.asm ++ [b2] = s.block.asm ++ [b1, b2] := by simp [hasm]
    refine ⟨hasm, fun hmore => ?_, fun hfull => ?_⟩
    · rw [rxByte_of_room htick.en (by omega), Block.acceptByte_asm, happend]
    · rw [rxByte_of_full htick.en (hlen.trans hfull), Block.acceptByte, happend]

end Sys2Proof.Machine
end

section
/-! NOP and the encode commands (R161, R162, R163, R165). -/

namespace Sys2Proof.Machine

theorem decodeCmd_nop {w : Word} (h : cmdOp w = 0x0) : decodeCmd w = .nop := by
  simp [decodeCmd, h]

theorem decodeCmd_encRead {w : Word} (h : cmdOp w = 0x1) : decodeCmd w = .encRead (cmdF0 w) := by
  simp [decodeCmd, h]

theorem decodeCmd_encIlock {w : Word} (h : cmdOp w = 0x3) :
    decodeCmd w = .encIlock (cmdF0 w) (cmdModeSel3 w) := by
  simp [decodeCmd, h]

section Relay

variable {w : Word} (hop : cmdOp w = 0x2)
include hop

theorem decodeCmd_relay : decodeCmd w = decodeRelay w := by
  simp [decodeCmd, hop]

theorem decodeCmd_encRelayOn (h : cmdModeSel w = 0) :
    decodeCmd w = .encRelayOn (cmdF0 w) (cmdF1 w) (cmdF2 w) := by
  simp [decodeCmd_relay hop, decodeRelay, h]

theorem decodeCmd_encRelayOff (h : cmdModeSel w = 1) :
    decodeCmd w = .encRelayOff (cmdF0 w) (cmdF1 w) (cmdF2 w) := by
  simp [decodeCmd_relay hop, decodeRelay, h]

theorem decodeCmd_encRelayMoment (h : cmdModeSel w = 2) :
    decodeCmd w = .encRelayMoment (cmdF0 w) (cmdF1 w) (cmdF2 w) := by
  simp [decodeCmd_relay hop, decodeRelay, h]

end Relay

/-- A command that runs the encode step on a six-byte body leaves the body and its CRC, low byte first, in TXBUF
and changes nothing else (R113, R160). -/
theorem exec_of_encodeTx {i : Instr} {s : State} {b0 b1 b2 b3 b4 b5 : Byte} (hi : i.channel = .command)
    (hb : instrBlock s.params i s.block = s.block.encodeTx [b0, b1, b2, b3, b4, b5]) :
    exec i s = .next { s with
      block := { s.block with
        txbuf := ⟨b0, b1, b2, b3, b4, b5, (crc16 [b0, b1, b2, b3, b4, b5]).extractLsb' 0 8,
          (crc16 [b0, b1, b2, b3, b4, b5]).extractLsb' 8 8⟩,
        txlen := 8 } } := by
  rw [exec_eq, instrState, instrInputs, hi, hb]
  rfl

/-- R85, R165: the mode code of a selector is the selector itself, 0x00 for the selectors 5 to 7. -/
theorem ilockModeByte_ilockModeOfSel (sel : BitVec 3) :
    ilockModeByte (ilockModeOfSel sel) = if sel.toNat ≤ 4 then BitVec.ofNat 8 sel.toNat else 0x00 := by
  revert sel
  decide

/-- Settles O31: OP 0x0 selects NOP, whose `instrState` is the state itself. -/
theorem nopHasNoEffect : Obligations.NopHasNoEffect := by
  unfold Obligations.NopHasNoEffect
  exact ⟨fun _ => decodeCmd_nop, fun s => exec_eq .nop s⟩

/-- Settles O32: ENC_READ runs the encode step on `readBody` (`exec_of_encodeTx`). -/
theorem encReadFillsTheTransmitBuffer : Obligations.EncReadFillsTheTransmitBuffer := by
  unfold Obligations.EncReadFillsTheTransmitBuffer
  exact ⟨fun _ => decodeCmd_encRead, fun a s => exec_of_encodeTx rfl rfl⟩

/-- Settles O33: the three commands run the encode step on `relayBody` with the mode byte of their selector (R84). -/
theorem encRelayFillsTheTransmitBuffer : Obligations.EncRelayFillsTheTransmitBuffer := by
  unfold Obligations.EncRelayFillsTheTransmitBuffer
  refine ⟨fun w hop => ⟨decodeCmd_encRelayOn hop, decodeCmd_encRelayOff hop, decodeCmd_encRelayMoment hop⟩,
    fun a i d m s cmd hcmd => ?_⟩
  rcases hcmd with ⟨rfl, rfl⟩ | ⟨rfl, rfl⟩ | ⟨rfl, rfl⟩ <;> exact exec_of_encodeTx rfl rfl

/-- Settles O34: ENC_ILOCK runs the encode step on `ilockBody`, whose mode code is that of
`ilockModeByte_ilockModeOfSel`. -/
theorem encIlockFillsTheTransmitBuffer : Obligations.EncIlockFillsTheTransmitBuffer := by
  unfold Obligations.EncIlockFillsTheTransmitBuffer
  refine ⟨fun _ => decodeCmd_encIlock, fun a sel s => exec_of_encodeTx rfl ?_⟩
  rw [← ilockModeByte_ilockModeOfSel]
  rfl

end Sys2Proof.Machine
end

section
/-! The receive FIFO: every event but RX_POP and reset leaves its entries in front (R133, R135, R198). -/

namespace Sys2Proof.Machine

theorem decodeCmd_rxPop {w : Word} (h : cmdOp w = 0x6) : decodeCmd w = .rxPop := by
  simp [decodeCmd, h]

theorem instrBlock_rxPop (p : Params) (b : Block) :
    instrBlock p .rxPop b = { b with fifo := b.fifo.drop 1 } := by
  rw [List.drop_one]
  rfl

section Kept

variable (p : Params) (b : Block)

theorem fifo_prefix_closeFrame : b.fifo <+: (b.closeFrame p).fifo := by
  rcases closeFrame_fifo p b with e | ⟨_, e⟩ <;> rw [e]
  exact List.prefix_append _ _

theorem fifo_prefix_rxByte (x : Byte) : b.fifo <+: (b.rxByte p x).fifo := by
  rcases rxByte_cases p x b with ⟨_, e⟩ | ⟨_, _, e⟩ | ⟨_, _, e⟩ <;> rw [e]
  · exact List.prefix_rfl
  · exact fifo_prefix_closeFrame p (b.acceptByte x)

theorem fifo_prefix_tick : b.fifo <+: (b.tick p).fifo := by
  rcases tick_cases p b with ⟨_, e⟩ | ⟨_, _, e⟩ | ⟨_, _, e⟩ <;> rw [e]
  · exact List.prefix_rfl
  · exact fifo_prefix_closeFrame p b.countSilence

theorem fifo_prefix_instrBlock {i : Instr} (hpop : i ≠ .rxPop) : b.fifo <+: (instrBlock p i b).fifo := by
  cases i with
  | rxPop => exact absurd rfl hpop
  | rxByte x => exact fifo_prefix_rxByte p b x
  | tick => exact fifo_prefix_tick p b
  | wrqRead a | wrqRelay a | wrqIlock a | wrsRead a | wrsAck a | wrsOther a => exact fifo_prefix_rxByte p b a
  | _ => exact List.prefix_rfl

end Kept

/-- No register write touches the FIFO (R63). -/
theorem hostWrite_fifo (off n : Nat) (v : Word) (b : Block) : (hostWrite off n v b).fifo = b.fifo := by
  rcases hostWrite_cases off n v b with ⟨_, _, e⟩ | ⟨_, _, e⟩ | ⟨_, _, e⟩ | ⟨_, e⟩ <;> rw [e] <;> rfl

/-- All an event can do to the FIFO: keep its entries in front, pop the head, or empty it (R198). -/
theorem eventBlock_fifo_cases (p : Params) (e : Event) (b : Block) :
    b.fifo <+: (eventBlock p e b).fifo ∨
    (eventInstr e = some .rxPop ∧ (eventBlock p e b).fifo = b.fifo.drop 1) ∨
    (∃ a, e = .reset a ∧ (eventBlock p e b).fifo = []) := by
  rcases eventBlock_cases p e b with ⟨i, hi, hb⟩ | ⟨a, ha, hb⟩ | ⟨off, n, v, _, _, hb⟩ | ⟨_, _, _, hb⟩ <;> rw [hb]
  · by_cases hpop : i = .rxPop
    · subst hpop
      exact .inr (.inl ⟨hi, by rw [instrBlock_rxPop]⟩)
    · exact .inl (fifo_prefix_instrBlock p b hpop)
  · exact .inr (.inr ⟨a, ha, rfl⟩)
  · exact .inl (by rw [hostWrite_fifo])
  · exact .inl List.prefix_rfl

/-- Settles O45: a step does to the FIFO what its one event does (`eventBlock_fifo_cases`), and in a cycle with a
tick the pop comes first (`step_command_then_tick`). -/
theorem onlyPopAndResetRemoveEntries : Obligations.OnlyPopAndResetRemoveEntries := by
  unfold Obligations.OnlyPopAndResetRemoveEntries
  refine ⟨fun w => decodeCmd_rxPop, fun s => ?_, fun s t hst => ?_, fun s w q hw hq => ?_⟩
  · rw [exec_eq, instrState, instrBlock_rxPop]
    rfl
  · rw [eq_stepState_of_step hst]
    rcases stepState_block_cases s with ⟨e, hev, he⟩ | ⟨_, he⟩ <;> rw [he]
    · simpa [hev] using eventBlock_fifo_cases s.params e s.block
    · exact .inl List.prefix_rfl
  · obtain ⟨t, u, hst, htu, hu⟩ := step_command_then_tick hq
    exact ⟨t, u, hst, htu, by rw [hu, decodeCmd_rxPop hw, instrBlock_rxPop]⟩

end Sys2Proof.Machine
end

section
/-! The decoded registers are fields of the head entry (R180). -/

namespace Sys2Proof.Machine

theorem hostRead_rxcrc (p : Params) (b : Block) : hostRead p b 0x024 4 = headWord b rxcrcWord := rfl
theorem hostRead_rxack (p : Params) (b : Block) : hostRead p b 0x028 4 = headWord b rxackWord := rfl
theorem hostRead_rxread (p : Params) (b : Block) :
    hostRead p b 0x02C 4 = headWord b (fun h => rxreadWord h b.incount) := rfl

theorem hostRead_rxval (p : Params) (b : Block) {k : Nat} (hk : k < 4) :
    hostRead p b (0x030 + 4 * k) 4 = headWord b (fun h => rxvalWord h b.incount k) := by
  obtain rfl | rfl | rfl | rfl : k = 0 ∨ k = 1 ∨ k = 2 ∨ k = 3 := by omega
  all_goals rfl

theorem regAt_rxdata {w : Nat} (hw : w < 64) : regAt (0x100 + 4 * w) = some (.rxdata w) := by
  unfold regAt
  split
  case h_19 =>
    rw [if_pos (by omega)]
    congr 2
    omega
  all_goals omega

theorem hostRead_rxdata (p : Params) (b : Block) {w : Nat} (hw : w < 64) :
    hostRead p b (0x100 + 4 * w) 4 = headWord b (fun h => frameWindow h w) := by
  have hadm : admitted (0x100 + 4 * w) 4 = true := by
    simp [admitted]
    omega
  rw [hostRead, if_pos hadm, regAt_rxdata hw]
  rfl

theorem headWord_of_nil {b : Block} (h : b.fifo = []) (field : Frame → Word) : headWord b field = 0 := by
  rw [headWord, h]

theorem headWord_of_cons {b : Block} {h : Frame} {rest : List Frame} (hb : b.fifo = h :: rest)
    (field : Frame → Word) : headWord b field = field h := by
  rw [headWord, hb]

theorem headWord_congr {b b' : Block} (h : b.fifo.head? = b'.fifo.head?) (field : Frame → Word) :
    headWord b field = headWord b' field := by
  cases hb : b.fifo <;> cases hb' : b'.fifo <;> simp_all [headWord]

/-- The offsets of the decoded registers and of the RXDATA window (R64). -/
abbrev DecodedOffset (off : Nat) : Prop := (0x020 ≤ off ∧ off ≤ 0x03C) ∨ (0x100 ≤ off ∧ off ≤ 0x1FC)

/-- An aligned decoded offset is RXINFO, RXCRC, RXACK, RXREAD, an RXVAL or a window word (R64). -/
theorem decodedOffset_cases {off : Nat} (h : DecodedOffset off) (ha : off % 4 = 0) :
    off = 0x020 ∨ off = 0x024 ∨ off = 0x028 ∨ off = 0x02C ∨
    (∃ k < 4, off = 0x030 + 4 * k) ∨ (∃ w < 64, off = 0x100 + 4 * w) := by
  by_cases hlow : off < 0x030
  · omega
  by_cases hwin : off < 0x100
  · exact .inr (.inr (.inr (.inr (.inl ⟨off / 4 - 12, by omega, by omega⟩))))
  · exact .inr (.inr (.inr (.inr (.inr ⟨off / 4 - 64, by omega, by omega⟩))))

/-- What a read at a decoded offset answers, at any width: a field of the head entry and INCOUNT (R180). -/
theorem exists_field_of_decodedOffset {off : Nat} (h : DecodedOffset off) (n : Nat) :
    ∃ field : BitVec 5 → Frame → Word, ∀ p b, hostRead p b off n = headWord b (field b.incount) := by
  by_cases hadm : n = 4 ∧ off % 4 = 0
  · obtain ⟨rfl, ha⟩ := hadm
    rcases decodedOffset_cases h ha with rfl | rfl | rfl | rfl | ⟨k, hk, rfl⟩ | ⟨w, hw, rfl⟩
    · exact ⟨fun _ => rxinfoWord, hostRead_rxinfo⟩
    · exact ⟨fun _ => rxcrcWord, hostRead_rxcrc⟩
    · exact ⟨fun _ => rxackWord, hostRead_rxack⟩
    · exact ⟨fun c h => rxreadWord h c, hostRead_rxread⟩
    · exact ⟨fun c h => rxvalWord h c k, fun p b => hostRead_rxval p b hk⟩
    · exact ⟨fun _ h => frameWindow h w, fun p b => hostRead_rxdata p b hw⟩
  · refine ⟨fun _ _ => 0, fun p b => ?_⟩
    rw [hostRead_of_not_admitted (admitted_eq_false fun hall => hadm ⟨hall.1, hall.2.1⟩)]
    unfold headWord
    split <;> rfl

/-- Settles O49: `exists_field_of_decodedOffset`. -/
theorem decodedRegistersReadTheHeadEntry : Obligations.DecodedRegistersReadTheHeadEntry := by
  unfold Obligations.DecodedRegistersReadTheHeadEntry
  refine ⟨fun p b off n hempty hoff => ?_, fun p p' b b' off n hhead hcount hoff => ?_⟩
  all_goals obtain ⟨field, hfield⟩ := exists_field_of_decodedOffset hoff n
  · rw [hfield, headWord_of_nil hempty]
  · rw [hfield, hfield, hcount, headWord_congr hhead]

/-- Settles O56: the window word is `runWord` of the head frame, whose lanes are those of `runWord_lane`. -/
theorem rxdataWindowShowsTheHeadBytes : Obligations.RxdataWindowShowsTheHeadBytes := by
  unfold Obligations.RxdataWindowShowsTheHeadBytes
  intro p b h rest w j hb hw hj
  rw [hostRead_rxdata p b hw, headWord_of_cons hb, frameWindow, runWord_lane _ _ hj, byteAt]
  split
  · rfl
  · next hend => exact List.getD_eq_default _ _ (Nat.le_of_not_lt hend)

end Sys2Proof.Machine
end

section
/-! Words put together from fields (R31 to R35, R66). -/

namespace Sys2Proof.Machine

theorem shiftLeft_or_eq_append {m n : Nat} (hi : BitVec m) (lo : BitVec n) :
    (hi.setWidth (m + n) <<< n) ||| lo.setWidth (m + n) = hi ++ lo := by
  rw [BitVec.append_def, BitVec.shiftLeftZeroExtend_eq, BitVec.setWidth'_eq]

/-- A wire field has its high byte first (R66). -/
theorem field16_eq_append (s : Frame) (i : Nat) : field16 s i = byteAt s i ++ byteAt s (i + 1) :=
  shiftLeft_or_eq_append (m := 8) (n := 8) _ _

theorem field16_toNat (s : Frame) (i : Nat) :
    (field16 s i).toNat = (byteAt s i).toNat * 256 + (byteAt s (i + 1)).toNat := by
  rw [field16_eq_append, BitVec.toNat_append, ← Nat.shiftLeft_add_eq_or_of_lt (BitVec.isLt _), Nat.shiftLeft_eq]

/-- A CRC on the wire has its low byte first (R66). -/
theorem crcTrailer_eq_append (s : Frame) :
    crcTrailer s = byteAt s (s.length - 1) ++ byteAt s (s.length - 2) :=
  (BitVec.or_comm _ _).trans (shiftLeft_or_eq_append (m := 8) (n := 8) _ _)

theorem rxcrcWord_eq_append (h : Frame) : rxcrcWord h = frameCrcCalc h ++ frameCrcRx h :=
  shiftLeft_or_eq_append (m := 16) (n := 16) _ _

theorem rxackWord_eq_append (h : Frame) : rxackWord h = frameAckVal h ++ frameAckReg h :=
  shiftLeft_or_eq_append (m := 16) (n := 16) _ _

/-- Bit `i` of a field shown from bit `k` up. -/
theorem getLsbD_field {m : Nat} (x : BitVec m) {k i : Nat} (hi : i < 32) :
    (x.setWidth 32 <<< k : Word).getLsbD i = (decide (k ≤ i ∧ i < k + m) && x.getLsbD (i - k)) := by
  simp only [BitVec.getLsbD_shiftLeft, BitVec.getLsbD_setWidth]
  by_cases hm : i < k + m
  · grind
  · simp [BitVec.getLsbD_of_ge x (i - k) (by omega), hm]

theorem extractLsb'_eq_of_getLsbD {k m : Nat} {w : Word} {x : BitVec m}
    (h : ∀ i < m, w.getLsbD (k + i) = x.getLsbD i) : w.extractLsb' k m = x := by
  apply BitVec.eq_of_getLsbD_eq
  intro i hi
  rw [BitVec.getLsbD_extractLsb', h i hi, decide_eq_true hi, Bool.true_and]

end Sys2Proof.Machine
end

section
/-! The fields of a frame, read off its bytes (R181 to R196). -/

namespace Sys2Proof.Machine

theorem getD_eq_byteAt (s : Frame) (i : Nat) : s.getD i 0 = byteAt s i := rfl

section Fields

variable {h : Frame}

theorem frameFunc_of_two_le (hlen : 2 ≤ h.length) : frameFunc h = byteAt h 1 := if_pos hlen

/-- A CRC-valid frame is long enough to have a function code (R185). -/
theorem crcOk_and_frameFunc_iff (c : Byte) :
    (frameCrcOk h && frameFunc h == c) = true ↔ 4 ≤ h.length ∧ crcVerify h = true ∧ byteAt h 1 = c := by
  rw [Bool.and_eq_true, frameCrcOk_iff, beq_iff_eq, and_assoc]
  refine and_congr_right fun hlen => ?_
  rw [frameFunc_of_two_le (by omega)]

theorem frameIsRead_iff :
    frameIsRead h = true ↔ 4 ≤ h.length ∧ crcVerify h = true ∧ byteAt h 1 = 0x03 :=
  crcOk_and_frameFunc_iff 0x03

theorem frameIsAck_iff :
    frameIsAck h = true ↔ 4 ≤ h.length ∧ crcVerify h = true ∧ byteAt h 1 = 0x06 :=
  crcOk_and_frameFunc_iff 0x06

/-- The payload stands two bytes into the frame and ends two bytes before its end (R186). -/
theorem byteAt_framePayload {i : Nat} (hi : i + 4 < h.length) : byteAt (framePayload h) i = byteAt h (i + 2) := by
  have hi' : i < h.length - 4 := by omega
  simp [byteAt, framePayload, hi', Nat.add_comm 2 i]

theorem field16_framePayload {i : Nat} (hi : i + 5 < h.length) :
    field16 (framePayload h) i = field16 h (i + 2) := by
  rw [field16_eq_append, field16_eq_append, byteAt_framePayload (by omega), byteAt_framePayload (by omega),
    Nat.add_right_comm]

theorem byteAt_frameRegData {i : Nat} (hi : i + 5 < h.length) : byteAt (frameRegData h) i = byteAt h (i + 3) := by
  have hdrop : byteAt (frameRegData h) i = byteAt (framePayload h) (i + 1) := by
    simp [byteAt, frameRegData]
  rw [hdrop, byteAt_framePayload (by omega)]

/-- A read response with a byte count: the frames that have registers to count (R189, R190). -/
abbrev CountedFrame (h : Frame) : Prop := frameIsRead h = true ∧ 5 ≤ h.length

theorem countedFrame_iff :
    CountedFrame h ↔ 4 ≤ h.length ∧ crcVerify h = true ∧ byteAt h 1 = 0x03 ∧ 5 ≤ h.length := by
  rw [CountedFrame, frameIsRead_iff, and_assoc, and_assoc]

theorem isRead_and_payload_iff : (frameIsRead h && 1 ≤ framePlen h) = true ↔ CountedFrame h := by
  rw [Bool.and_eq_true, decide_eq_true_eq, framePlen]
  exact and_congr_right fun _ => by omega

theorem frameBcnt_eq : frameBcnt h = if CountedFrame h then byteAt h 2 else 0x00 := by
  simp only [frameBcnt, isRead_and_payload_iff]
  exact ite_congr rfl (fun hc => byteAt_framePayload (by omega)) fun _ => rfl

theorem frameNreg_eq : frameNreg h = if CountedFrame h then (h.length - 5) / 2 else 0 := by
  simp only [frameNreg, isRead_and_payload_iff]
  rw [framePlen, Nat.sub_sub]

theorem frameBcmis_iff : frameBcmis h = true ↔ CountedFrame h ∧ (byteAt h 2).toNat ≠ h.length - 5 := by
  rw [frameBcmis, Bool.and_eq_true, isRead_and_payload_iff, bne_iff_ne, framePlen, Nat.sub_sub]
  exact and_congr_right fun hc => by rw [frameBcnt_eq, if_pos hc]

/-- R191: input `i` is valid below 16, INCOUNT and the number of registers. -/
theorem frameValid_iff {c : BitVec 5} {i : Nat} :
    frameValid h c i = true ↔ CountedFrame h ∧ i < 16 ∧ i < c.toNat ∧ i < (h.length - 5) / 2 := by
  simp only [frameValid, Bool.and_eq_true, decide_eq_true_eq]
  rw [frameNreg_eq, Config.maxInputs]
  by_cases hc : CountedFrame h
  · rw [if_pos hc, iff_true_intro hc, iff_true_intro hc.1, true_and, true_and, and_assoc]
  · rw [if_neg hc]
    exact iff_of_false (fun ⟨_, hi⟩ => Nat.not_lt_zero i hi) fun ⟨hcounted, _⟩ => hc hcounted

theorem frameValue_of_valid {c : BitVec 5} {i : Nat} (hv : frameValid h c i = true) :
    frameValue h c i = byteAt h (2 * i + 4) := by
  obtain ⟨_, _, _, hi⟩ := frameValid_iff.1 hv
  rw [frameValue, if_pos hv, byteAt_frameRegData (by omega)]

theorem frameValue_of_not_valid {c : BitVec 5} {i : Nat} (hv : ¬ frameValid h c i = true) :
    frameValue h c i = 0 :=
  if_neg hv

theorem isAck_and_payload_iff {k : Nat} :
    (frameIsAck h && k ≤ framePlen h) = true ↔ frameIsAck h = true ∧ k + 4 ≤ h.length := by
  rw [Bool.and_eq_true, decide_eq_true_eq, framePlen]
  refine and_congr_right fun hack => ?_
  obtain ⟨hlen, _⟩ := frameIsAck_iff.1 hack
  omega

theorem frameAckReg_eq :
    frameAckReg h = if frameIsAck h = true ∧ 6 ≤ h.length then field16 h 2 else 0 := by
  simp only [frameAckReg, isAck_and_payload_iff]
  exact ite_congr rfl (fun hc => field16_framePayload (by omega)) fun _ => rfl

theorem frameAckVal_eq :
    frameAckVal h = if frameIsAck h = true ∧ 8 ≤ h.length then field16 h 4 else 0 := by
  simp only [frameAckVal, isAck_and_payload_iff]
  exact ite_congr rfl (fun hc => field16_framePayload (by omega)) fun _ => rfl

end Fields

end Sys2Proof.Machine
end

section
/-! RXINFO, RXCRC and RXACK (R31, R32, R33). -/

namespace Sys2Proof.Machine

/-- The bits of RXINFO (R31). -/
theorem getLsbD_rxinfoWord (h : Frame) {i : Nat} (hi : i < 32) :
    (rxinfoWord h).getLsbD i =
      (decide (i < 9) && h.length.testBit i || decide (i = 9) && crcVerify h || decide (i = 10) && frameCrcOk h ||
        decide (i = 11) && frameRunt h || decide (i = 12) && frameIsRead h || decide (i = 13) && frameIsAck h ||
        decide (i = 14) && frameBcmis h || decide (16 ≤ i ∧ i < 24) && (frameAddr h).getLsbD (i - 16) ||
        decide (24 ≤ i ∧ i < 32) && (frameFunc h).getLsbD (i - 24)) := by
  simp only [rxinfoWord, BitVec.getLsbD_or, getLsbD_flagBit, getLsbD_field _ hi, BitVec.getLsbD_setWidth,
    BitVec.getLsbD_ofNat, hi, decide_true, Bool.true_and, Nat.reduceAdd]
  rfl

theorem rxinfoWord_len {h : Frame} (hlen : h.length ≤ 256) :
    ((rxinfoWord h).extractLsb' 0 9).toNat = h.length := by
  refine toNat_extractLsb'_of_testBit (by omega) fun i hi => ?_
  rw [getLsbD_rxinfoWord h (by omega)]
  grind

theorem rxinfoWord_addr (h : Frame) : (rxinfoWord h).extractLsb' 16 8 = frameAddr h := by
  refine extractLsb'_eq_of_getLsbD fun i hi => ?_
  rw [getLsbD_rxinfoWord h (by omega)]
  grind

theorem rxinfoWord_func (h : Frame) : (rxinfoWord h).extractLsb' 24 8 = frameFunc h := by
  refine extractLsb'_eq_of_getLsbD fun i hi => ?_
  rw [getLsbD_rxinfoWord h (by omega)]
  grind

/-- Settles O50: each bit is its field by `getLsbD_rxinfoWord`, each field what `frameIsRead_iff` and the lemmas
beside it say of the bytes. -/
theorem rxinfoDescribesTheHeadFrame : Obligations.RxinfoDescribesTheHeadFrame := by
  unfold Obligations.RxinfoDescribesTheHeadFrame
  intro p b h rest hb _ hlen
  rw [hostRead_rxinfo, headWord_of_cons hb]
  simp only [getD_eq_byteAt]
  have hbit {i : Nat} (hi : i < 32) := getLsbD_rxinfoWord h hi
  refine ⟨rxinfoWord_len hlen, ?_, ?_, ?_, ?_, ?_, ?_, rxinfoWord_getLsbD_15 h, rxinfoWord_addr h,
    rxinfoWord_func h⟩
  · rw [hbit (by decide)]
    simp
  · rw [hbit (by decide), ← frameCrcOk_iff]
    simp
  · rw [hbit (by decide)]
    simp [frameRunt]
  · rw [hbit (by decide), and_assoc, ← frameIsRead_iff]
    simp
  · rw [hbit (by decide), and_assoc, ← frameIsAck_iff]
    simp
  · rw [hbit (by decide)]
    simp [frameBcmis_iff, countedFrame_iff, and_assoc]

/-- Settles O51: the halves of `rxcrcWord_eq_append`, the lower one the bytes of `crcTrailer_eq_append`. -/
theorem rxcrcHoldsReceivedAndComputedCrc : Obligations.RxcrcHoldsReceivedAndComputedCrc := by
  unfold Obligations.RxcrcHoldsReceivedAndComputedCrc
  intro p b h rest hb
  rw [hostRead_rxcrc, headWord_of_cons hb, rxcrcWord_eq_append]
  simp only [getD_eq_byteAt]
  refine ⟨fun hlen => ⟨?_, ?_, ?_⟩, fun hshort => ?_⟩
  · rw [BitVec.extractLsb'_append_eq_of_add_le (by decide), frameCrcRx, if_pos hlen, crcTrailer_eq_append]
    exact BitVec.extractLsb'_append_eq_right
  · rw [BitVec.extractLsb'_append_eq_of_add_le (by decide), frameCrcRx, if_pos hlen, crcTrailer_eq_append]
    exact BitVec.extractLsb'_append_eq_left
  · rw [BitVec.extractLsb'_append_eq_left, frameCrcCalc, if_pos hlen, crcBody]
  · rw [frameCrcCalc, frameCrcRx, if_neg (by omega), if_neg (by omega)]
    rfl

/-- Settles O52: the halves of `rxackWord_eq_append`, each a wire field of the frame or 0. -/
theorem rxackHoldsTheEchoedRegisterAndValue : Obligations.RxackHoldsTheEchoedRegisterAndValue := by
  unfold Obligations.RxackHoldsTheEchoedRegisterAndValue
  intro p b h rest hb
  simp only [getD_eq_byteAt, ← frameIsAck_iff]
  rw [hostRead_rxack, headWord_of_cons hb, rxackWord_eq_append, BitVec.extractLsb'_append_eq_left,
    BitVec.extractLsb'_append_eq_right, frameAckReg_eq, frameAckVal_eq]
  refine ⟨fun hreg => ?_, fun hreg => if_neg hreg, fun hval => ?_, fun hval => if_neg hval⟩
  · rw [if_pos hreg, field16_toNat]
  · rw [if_pos hval, field16_toNat]

end Sys2Proof.Machine
end

section
/-! RXREAD and RXVAL (R34, R35). -/

namespace Sys2Proof.Machine

theorem getLsbD_validBits (h : Frame) (c : BitVec 5) (n i : Nat) :
    (validBits h c n).getLsbD i = (decide (i < 32 ∧ i < n) && frameValid h c i) := by
  induction n with
  | zero => simp [validBits]
  | succ n ih =>
    rw [validBits, BitVec.getLsbD_or, ih, getLsbD_flagBit]
    grind

/-- The bits of RXREAD (R34). -/
theorem getLsbD_rxreadWord (h : Frame) (c : BitVec 5) {i : Nat} (hi : i < 32) :
    (rxreadWord h c).getLsbD i =
      (decide (i < 8) && (frameBcnt h).getLsbD i ||
        decide (8 ≤ i ∧ i < 16) && (frameNreg h).testBit (i - 8) ||
        decide (16 ≤ i) && frameValid h c (i - 16)) := by
  simp only [rxreadWord, BitVec.getLsbD_or, getLsbD_field _ hi, BitVec.getLsbD_setWidth, BitVec.getLsbD_shiftLeft,
    BitVec.getLsbD_ofNat, getLsbD_validBits, Config.maxInputs]
  grind

theorem rxvalWord_lane (h : Frame) (c : BitVec 5) (k : Nat) {j : Nat} (hj : j < 4) :
    (rxvalWord h c k).extractLsb' (8 * j) 8 = frameValue h c (4 * k + j) := by
  rw [rxvalWord, laneWord_lane _ _ _ _ hj]
  obtain rfl | rfl | rfl | rfl : j = 0 ∨ j = 1 ∨ j = 2 ∨ j = 3 := by omega
  all_goals rfl

section NotCounted

variable {h : Frame} (hc : ¬ CountedFrame h) (c : BitVec 5)
include hc

theorem frameValid_of_not_counted (i : Nat) : frameValid h c i = false :=
  Bool.eq_false_iff.2 fun hv => hc (frameValid_iff.1 hv).1

theorem rxreadWord_of_not_counted : rxreadWord h c = 0 := by
  apply BitVec.eq_of_getLsbD_eq
  intro i hi
  rw [getLsbD_rxreadWord h c hi, frameBcnt_eq, if_neg hc, frameNreg_eq, if_neg hc,
    frameValid_of_not_counted hc]
  simp

theorem rxvalWord_of_not_counted (k : Nat) : rxvalWord h c k = 0 := by
  have hzero (i : Nat) : frameValue h c i = 0 :=
    frameValue_of_not_valid (Bool.eq_false_iff.1 (frameValid_of_not_counted hc c i))
  simp only [rxvalWord, hzero]
  rfl

end NotCounted

/-- Settles O53: the fields of `getLsbD_rxreadWord`, by `frameBcnt_eq`, `frameNreg_eq` and `frameValid_iff`. -/
theorem rxreadCountsTheRegisters : Obligations.RxreadCountsTheRegisters := by
  unfold Obligations.RxreadCountsTheRegisters
  intro p b h rest hb hlen
  simp only [getD_eq_byteAt, ← countedFrame_iff]
  rw [hostRead_rxread, headWord_of_cons hb]
  have hbit {i : Nat} (hi : i < 32) := getLsbD_rxreadWord h b.incount hi
  refine ⟨fun hc => ⟨?_, ?_⟩, fun hc => rxreadWord_of_not_counted hc _, fun i hi => ?_⟩
  · refine extractLsb'_eq_of_getLsbD fun i hi => ?_
    rw [hbit (by omega), frameBcnt_eq, if_pos hc]
    grind
  · refine toNat_extractLsb'_of_testBit (by omega) fun i hi => ?_
    rw [hbit (by omega), frameNreg_eq, if_pos hc]
    grind
  · have hvalid : (rxreadWord h b.incount).getLsbD (16 + i) = frameValid h b.incount i := by
      rw [hbit (by omega)]
      grind
    rw [hvalid, frameValid_iff, and_iff_right hi]

/-- Settles O54: lane by lane by `rxvalWord_lane`. -/
theorem rxvalHoldsTheLowBytes : Obligations.RxvalHoldsTheLowBytes := by
  unfold Obligations.RxvalHoldsTheLowBytes
  intro p b h rest hb i hi
  simp only [getD_eq_byteAt]
  rw [hostRead_rxval p b (by omega), headWord_of_cons hb, rxvalWord_lane _ _ _ (by omega), Nat.div_add_mod]
  have hvalid : frameValid h b.incount i = true ↔
      crcVerify h = true ∧ byteAt h 1 = 0x03 ∧ i < b.incount.toNat ∧ 2 * i + 7 ≤ h.length := by
    rw [frameValid_iff, countedFrame_iff]
    grind
  rw [← hvalid]
  exact ⟨frameValue_of_valid, frameValue_of_not_valid⟩

end Sys2Proof.Machine
end

section
/-! Frames that are not interpreted (R187, R199). -/

namespace Sys2Proof.Machine

section NotInterpreted

variable {h : Frame}
  (hnot : h.length < 4 ∨ crcVerify h = false ∨ (byteAt h 1 ≠ 0x03 ∧ byteAt h 1 ≠ 0x06))
include hnot

theorem frameIsRead_of_not_interpreted : frameIsRead h = false := by
  rw [Bool.eq_false_iff, Ne, frameIsRead_iff]
  grind

theorem frameIsAck_of_not_interpreted : frameIsAck h = false := by
  rw [Bool.eq_false_iff, Ne, frameIsAck_iff]
  grind

theorem not_countedFrame_of_not_interpreted : ¬ CountedFrame h :=
  fun hc => Bool.eq_false_iff.1 (frameIsRead_of_not_interpreted hnot) hc.1

theorem rxinfoWord_of_not_interpreted : (rxinfoWord h).extractLsb' 12 3 = 0 := by
  have hread := frameIsRead_of_not_interpreted hnot
  have hack := frameIsAck_of_not_interpreted hnot
  have hbcmis : frameBcmis h = false := by simp [frameBcmis, hread]
  refine extractLsb'_eq_zero_of_getLsbD fun i hi => ?_
  rw [getLsbD_rxinfoWord h (by omega), hread, hack, hbcmis]
  grind

theorem rxackWord_of_not_interpreted : rxackWord h = 0 := by
  have hack := Bool.eq_false_iff.1 (frameIsAck_of_not_interpreted hnot)
  rw [rxackWord_eq_append, frameAckVal_eq, frameAckReg_eq, if_neg (fun hc => hack hc.1), if_neg (fun hc => hack hc.1)]
  rfl

end NotInterpreted

/-- Settles O55: such a frame is neither a read response nor an acknowledgement, so every field of RXACK, RXREAD
and RXVAL is 0; the offsets between the registers are not admitted. -/
theorem otherFramesAreNotInterpreted : Obligations.OtherFramesAreNotInterpreted := by
  unfold Obligations.OtherFramesAreNotInterpreted
  intro p b h rest hb hnot
  simp only [getD_eq_byteAt] at hnot
  refine ⟨?_, fun off hlo hhi => ?_⟩
  · rw [hostRead_rxinfo, headWord_of_cons hb, rxinfoWord_of_not_interpreted hnot]
  by_cases ha : off % 4 = 0
  · rcases decodedOffset_cases (.inl ⟨by omega, hhi⟩) ha with rfl | rfl | rfl | rfl | ⟨k, hk, rfl⟩ | ⟨w, _, rfl⟩
    · omega
    · omega
    · rw [hostRead_rxack, headWord_of_cons hb, rxackWord_of_not_interpreted hnot]
    · rw [hostRead_rxread, headWord_of_cons hb,
        rxreadWord_of_not_counted (not_countedFrame_of_not_interpreted hnot)]
    · rw [hostRead_rxval p b hk, headWord_of_cons hb,
        rxvalWord_of_not_counted (not_countedFrame_of_not_interpreted hnot)]
    · omega
  · exact hostRead_of_not_admitted (admitted_eq_false fun hall => ha hall.2.1) p b

end Sys2Proof.Machine
end

section
/-! The interrupt level and the sticky bits (R225, R228, R238). -/

namespace Sys2Proof.Machine

theorem anyError_iff (b : Block) :
    b.anyError = true ↔ b.cmderr = true ∨ b.droperr = true ∨ b.crcerr = true := by
  simp [Block.anyError, or_assoc]

theorem irq_iff (b : Block) :
    b.irq = true ↔ (b.ieRx = true ∧ b.fifo ≠ []) ∨
      (b.ieErr = true ∧ (b.cmderr = true ∨ b.droperr = true ∨ b.crcerr = true)) := by
  simp [Block.irq, rxne_iff, anyError_iff]

/-- Settles O14: the disabled block discards a byte, the idle block ignores a tick, and `irq` has both enables 0. -/
theorem disabledBlockIsQuiescent : Obligations.DisabledBlockIsQuiescent := by
  unfold Obligations.DisabledBlockIsQuiescent
  intro s hen hrx herr hasm
  refine ⟨fun x => ?_, ?_, ?_⟩
  · rw [exec_eq, instrState, instrBlock, rxByte_of_disabled hen]
    rfl
  · rw [exec_eq, instrState, instrBlock, tick_of_idle hasm]
    rfl
  · simp [Block.irq, hrx, herr]

/-- Settles O21: the write is `clearSticky`, bit by bit. -/
theorem statusWriteClearsStickyBits : Obligations.StatusWriteClearsStickyBits := by
  unfold Obligations.StatusWriteClearsStickyBits
  intro s v
  have hbit (old bit : Bool) : (if bit = true then false else old) = (old && !bit) := by
    cases bit <;> simp
  simp only [hbit]
  exact stepEvent_write_status s v

theorem getLsbD_of_extractLsb' {w : Word} {k m : Nat} {x : BitVec m} (h : w.extractLsb' k m = x) {i : Nat}
    (hi : i < m) : w.getLsbD (k + i) = x.getLsbD i := by
  simp [← h, hi]

/-- Ones in the three write-1-to-clear bits leave no sticky bit (R225). -/
theorem anyError_clearSticky {v : Word} (h : v.extractLsb' 4 3 = 7) (b : Block) :
    (b.clearSticky v).anyError = false := by
  have h4 : v.getLsbD 4 = true := getLsbD_of_extractLsb' (i := 0) h (by decide)
  have h5 : v.getLsbD 5 = true := getLsbD_of_extractLsb' (i := 1) h (by decide)
  have h6 : v.getLsbD 6 = true := getLsbD_of_extractLsb' (i := 2) h (by decide)
  simp [Block.anyError, h4, h5, h6]

theorem irq_of_no_cause {b : Block} (hfifo : b.fifo = []) (herr : b.anyError = false) : b.irq = false := by
  simp [Block.irq, Block.rxne, hfifo, herr]

/-- A run of pops takes as many entries off the head of the FIFO, and changes nothing else (R198). -/
theorem runInstrs_rxPop (n : Nat) (s : State) :
    runInstrs (List.replicate n .rxPop) s =
      .next (s.withBlock { s.block with fifo := s.block.fifo.drop n }) := by
  induction n generalizing s with
  | zero => rfl
  | succ n ih =>
    have hpop : exec .rxPop s = .next (s.withBlock s.block.popFifo) := rfl
    simp only [List.replicate_succ, runInstrs, hpop, ih, State.withBlock_block, Block.popFifo_fifo,
      List.drop_tail]
    rfl

/-- Settles O60: the pops empty the FIFO (`runInstrs_rxPop`) and the write leaves no sticky bit. -/
theorem interruptFollowsTheState : Obligations.InterruptFollowsTheState := by
  unfold Obligations.InterruptFollowsTheState
  refine ⟨irq_iff, fun s v hv => ⟨_, _, runInstrs_rxPop _ s, stepEvent_write_status _ v, ?_⟩⟩
  exact irq_of_no_cause List.drop_length (anyError_clearSticky hv _)

end Sys2Proof.Machine
end

section
/-! The counters: they count the closes, and only CNT_CLEAR and reset change them otherwise (R226). -/

namespace Sys2Proof.Machine

/-- The counter goes up, saturating, when `yes` holds, and stays when not (R226). -/
structure Counted (before after : Half) (yes : Prop) : Prop where
  up : yes → after = satInc before
  same : ¬ yes → after = before

theorem Counted.of_eq {before after : Half} {yes : Prop} (hno : ¬ yes) (h : after = before) :
    Counted before after yes :=
  ⟨fun hyes => absurd hyes hno, fun _ => h⟩

theorem Counted.up_toNat {before after : Half} {yes : Prop} (h : Counted before after yes) (hyes : yes) :
    after.toNat = min (before.toNat + 1) 0xFFFF := by
  rw [h.up hyes, satInc_toNat]

/-- A saturating counter never wraps (R226). -/
theorem Counted.le {before after : Half} {yes : Prop} (h : Counted before after yes) :
    before.toNat ≤ after.toNat := by
  by_cases hyes : yes
  · have hlt := before.isLt
    rw [h.up_toNat hyes]
    omega
  · rw [h.same hyes]

/-- From `b` to `c` the three counters count the close of the frame, if there is one: every close, one that is not
CRC-valid, and one that reaches a full FIFO (R226). -/
structure Block.CountsClose (p : Params) (b : Block) (closed : Option Frame) (c : Block) : Prop where
  frames : Counted b.cntFrames c.cntFrames (∃ f, closed = some f)
  crcerr : Counted b.cntCrcerr c.cntCrcerr (∃ f, closed = some f ∧ ¬ frameCrcOk f = true)
  drop : Counted b.cntDrop c.cntDrop
    (∃ f, closed = some f ∧ (frameCrcOk f = true ∨ b.dropbad = false) ∧ b.fifo.length = p.rxqDepth)

section CountsClose

variable {p : Params} {b : Block}

theorem countsClose_none {c : Block} (hframes : c.cntFrames = b.cntFrames) (hcrcerr : c.cntCrcerr = b.cntCrcerr)
    (hdrop : c.cntDrop = b.cntDrop) : b.CountsClose p none c :=
  ⟨.of_eq (by simp) hframes, .of_eq (by simp) hcrcerr, .of_eq (by simp) hdrop⟩

theorem closeFrame_countsClose (p : Params) (b : Block) : b.CountsClose p (some b.asm) (b.closeFrame p) := by
  rw [closeFrame_eq]
  constructor <;> simp only [Option.some_inj, exists_eq', exists_eq_left']
  · exact ⟨fun _ => rfl, fun hno => absurd trivial hno⟩
  · exact ⟨fun hbad => if_neg hbad, fun hok => if_pos (not_not.1 hok)⟩
  · exact ⟨fun hfull => if_pos hfull, fun hroom => if_neg hroom⟩

theorem closingFrame_rxByte_of_full (hen : b.en = true) (hfull : b.asm.length + 1 = p.maxFrame) (x : Byte) :
    closingFrame p b (.rxByte x) = some (b.asm ++ [x]) := by
  simp [closingFrame, hen, hfull]

theorem closingFrame_rxByte_of_not_full (h : b.en = false ∨ b.asm.length + 1 ≠ p.maxFrame) (x : Byte) :
    closingFrame p b (.rxByte x) = none := by
  rcases h with h | h <;> simp [closingFrame, h]

theorem rxByte_countsClose (x : Byte) : b.CountsClose p (closingFrame p b (.rxByte x)) (b.rxByte p x) := by
  rcases rxByte_cases p x b with ⟨hen, e⟩ | ⟨_, hroom, e⟩ | ⟨hen, hfull, e⟩ <;> rw [e]
  · rw [closingFrame_rxByte_of_not_full (.inl hen)]
    exact countsClose_none rfl rfl rfl
  · rw [closingFrame_rxByte_of_not_full (.inr hroom)]
    exact countsClose_none rfl rfl rfl
  · rw [closingFrame_rxByte_of_full hen hfull]
    exact { closeFrame_countsClose p (b.acceptByte x) with }

theorem closingFrame_tick_of_quiet (hasm : b.asm ≠ []) (hquiet : b.quiet.toNat ≤ (satInc b.sil).toNat) :
    closingFrame p b .tick = some b.asm := by
  simp [closingFrame, (assembling_iff b).2 hasm, hquiet]

theorem closingFrame_tick_of_not_quiet (h : b.asm = [] ∨ (satInc b.sil).toNat < b.quiet.toNat) :
    closingFrame p b .tick = none := by
  rcases h with h | h
  · simp [closingFrame, Block.assembling, h]
  · simp [closingFrame, Nat.not_le_of_lt h]

theorem tick_countsClose : b.CountsClose p (closingFrame p b .tick) (b.tick p) := by
  rcases tick_cases p b with ⟨hidle, e⟩ | ⟨_, hshort, e⟩ | ⟨hasm, hquiet, e⟩ <;> rw [e]
  · rw [closingFrame_tick_of_not_quiet (.inl hidle)]
    exact countsClose_none rfl rfl rfl
  · rw [closingFrame_tick_of_not_quiet (.inr hshort)]
    exact countsClose_none rfl rfl rfl
  · rw [closingFrame_tick_of_quiet hasm hquiet]
    exact { closeFrame_countsClose p b.countSilence with }

/-- No command but CNT_CLEAR touches a counter (R226, R227). -/
theorem instrBlock_countsClose_none {i : Instr} (hi : i.channel = .command) (hne : i ≠ .cntClear) :
    b.CountsClose p none (instrBlock p i b) := by
  cases i with
  | cntClear => exact absurd rfl hne
  | rxByte | tick | wrqRead | wrqRelay | wrqIlock | wrsRead | wrsAck | wrsOther => cases hi
  | _ => exact countsClose_none rfl rfl rfl

theorem hostWrite_countsClose_none (off n : Nat) (v : Word) : b.CountsClose p none (hostWrite off n v b) := by
  rcases hostWrite_cases off n v b with ⟨_, _, e⟩ | ⟨_, _, e⟩ | ⟨_, _, e⟩ | ⟨_, e⟩ <;> rw [e]
  all_goals exact countsClose_none rfl rfl rfl

/-- The only instruction a host access can be is a command (R25). -/
theorem channel_of_access {a : Access} {i : Instr} (h : eventInstr (.access a) = some i) :
    i.channel = .command := by
  cases a with
  | read off n => cases h
  | write off n v =>
    simp only [eventInstr] at h
    split at h
    · cases h
      exact decodeCmd_channel v
    · cases h

theorem access_countsClose_none {a : Access} (hclear : eventInstr (.access a) ≠ some .cntClear) :
    b.CountsClose p none (eventBlock p (.access a) b) := by
  rcases eventBlock_cases p (.access a) b with ⟨i, hi, e⟩ | ⟨_, h, _⟩ | ⟨off, n, v, _, _, e⟩ | ⟨_, _, _, e⟩
  · rw [e]
    exact instrBlock_countsClose_none (channel_of_access hi) fun hne => hclear (hne ▸ hi)
  · cases h
  · rw [e]
    exact hostWrite_countsClose_none off n v
  · rw [e]
    exact countsClose_none rfl rfl rfl

/-- Every event but CNT_CLEAR and reset counts the close it makes, and no other event closes a frame. -/
theorem eventBlock_countsClose {e : Event} (hclear : eventInstr e ≠ some .cntClear) (hreset : ∀ a, e ≠ .reset a) :
    b.CountsClose p (closingFrame p b e) (eventBlock p e b) := by
  cases e with
  | reset a => exact absurd rfl (hreset a)
  | access a => exact access_countsClose_none hclear
  | rxByte x => exact rxByte_countsClose x
  | tick => exact tick_countsClose

end CountsClose

theorem stepState_countsClose {s : State} (hclear : (nextEvent s.inputs).bind eventInstr ≠ some .cntClear)
    (hreset : ∀ a, nextEvent s.inputs ≠ some (.reset a)) :
    s.block.CountsClose s.params ((nextEvent s.inputs).bind (closingFrame s.params s.block))
      (stepState s).block := by
  rcases stepState_block_cases s with ⟨e, hev, he⟩ | ⟨hev, he⟩ <;> rw [he, hev]
  · rw [hev] at hclear hreset
    exact eventBlock_countsClose hclear fun a ha => hreset a (congrArg some ha)
  · exact countsClose_none rfl rfl rfl

/-- Settles O58: a step counts the close of its one event (`stepState_countsClose`). -/
theorem countersCountTheCloses : Obligations.CountersCountTheCloses := by
  unfold Obligations.CountersCountTheCloses
  intro s t hst hclear hreset
  rw [eq_stepState_of_step hst]
  obtain ⟨hframes, hcrcerr, hdrop⟩ := stepState_countsClose hclear hreset
  simp only [← frameCrcOk_iff]
  exact ⟨⟨hframes.le, hcrcerr.le, hdrop.le⟩, ⟨hframes.up_toNat, hframes.same⟩,
    ⟨hcrcerr.up_toNat, hcrcerr.same⟩, ⟨hdrop.up_toNat, hdrop.same⟩⟩

end Sys2Proof.Machine
end

section
/-! Reset: the reset column of R22, read register by register, and the cycle that holds a reset (R250). -/

namespace Sys2Proof.Machine

theorem regAt_crc {off : Nat} (h : regAt off = some .crc) : off = 0x010 := by
  unfold regAt at h; split at h <;> simp_all

/-- After reset, CFG and CRC alone read nonzero: the counts and flags are 0, and the FIFO has no head entry. -/
theorem readReg_reset_eq_zero {p : Params} (hp : p.Legal) {r : Reg} (hcfg : r ≠ .cfg) (hcrc : r ≠ .crc) :
    readReg p Block.reset r = 0 := by
  cases r with
  | cfg => exact absurd rfl hcfg
  | crc => exact absurd rfl hcrc
  | status => exact statusWord_reset hp
  | _ => rfl

theorem hostRead_reset_eq_zero {p : Params} (hp : p.Legal) {off : Nat} (hcfg : off ≠ 0x004)
    (hcrc : off ≠ 0x010) (n : Nat) : hostRead p Block.reset off n = 0 := by
  unfold hostRead
  split
  · cases hr : regAt off with
    | none => rfl
    | some r =>
      exact readReg_reset_eq_zero hp (fun e => hcfg (regAt_cfg (e ▸ hr))) (fun e => hcrc (regAt_crc (e ▸ hr)))
  · rfl

theorem hostRead_reset {p : Params} (hp : p.Legal) (off : Nat) :
    hostRead p Block.reset off 4 =
      if off = 0x004 then 0x000C001E else if off = 0x010 then 0x0000FFFF else 0 := by
  split_ifs with hcfg hcrc
  · subst hcfg
    rfl
  · subst hcrc
    rfl
  · exact hostRead_reset_eq_zero hp hcfg hcrc 4

/-- A cycle with reset asserted is the reset alone: of what else it holds, only a host read is answered (R229,
R250). -/
theorem step_reset {s : State} {c : Cycle} {q : List Input} (hq : s.inputs = .cycle c :: q)
    (hc : c.reset = true) :
    step s = .next { s with block := Block.reset, inputs := q, rdata := resetRead s.params c.host } := by
  simp only [step, hq, stepCycle, cycleEvent, cycleRest, hc, ↓reduceIte]
  rfl

/-- Settles O10: the step is `step_reset`, and the registers of the reset block read by `hostRead_reset`. -/
theorem resetRestoresEveryElement : Obligations.ResetRestoresEveryElement := by
  unfold Obligations.ResetRestoresEveryElement
  intro s c q hp hq hc
  have hread (off : Nat) (ha : c.host = some (.read off 4)) :
      resetRead s.params c.host = some (hostRead s.params Block.reset off 4) :=
    congrArg (resetRead s.params) ha
  exact ⟨_, step_reset hq hc, rfl, rfl, ⟨rfl, rfl, rfl, rfl⟩, ⟨rfl, rfl⟩, rfl, ⟨rfl, rfl⟩, ⟨rfl, rfl⟩, rfl,
    ⟨rfl, rfl, rfl⟩, ⟨rfl, rfl, rfl⟩, irq_of_no_cause rfl rfl, hostRead_reset hp, hread⟩

end Sys2Proof.Machine
end

section
/-! Decode of encode: the fields of a command word, the lanes it is sent in, and the wire formats (R65, R81 to R96). -/

namespace Sys2Proof.Machine

section CmdFields

variable (op sub : BitVec 4) (f0 f1 f2 : Byte)

@[simp] theorem cmdOp_cmdWord : cmdOp (cmdWord op sub f0 f1 f2) = op := BitVec.extractLsb'_append_eq_right

@[simp] theorem cmdSub_cmdWord : cmdSub (cmdWord op sub f0 f1 f2) = sub := by
  rw [cmdSub, cmdWord, BitVec.extractLsb'_append_eq_of_le (by decide), BitVec.extractLsb'_append_eq_right]

@[simp] theorem cmdF0_cmdWord : cmdF0 (cmdWord op sub f0 f1 f2) = f0 := by
  rw [cmdF0, cmdWord, BitVec.extractLsb'_append_eq_of_le (by decide),
    BitVec.extractLsb'_append_eq_of_le (by decide), BitVec.extractLsb'_append_eq_right]

@[simp] theorem cmdF1_cmdWord : cmdF1 (cmdWord op sub f0 f1 f2) = f1 := by
  rw [cmdF1, cmdWord, BitVec.extractLsb'_append_eq_of_le (by decide),
    BitVec.extractLsb'_append_eq_of_le (by decide), BitVec.extractLsb'_append_eq_of_le (by decide),
    BitVec.extractLsb'_append_eq_right]

@[simp] theorem cmdF2_cmdWord : cmdF2 (cmdWord op sub f0 f1 f2) = f2 := by
  rw [cmdF2, cmdWord, BitVec.extractLsb'_append_eq_of_le (by decide),
    BitVec.extractLsb'_append_eq_of_le (by decide), BitVec.extractLsb'_append_eq_of_le (by decide),
    BitVec.extractLsb'_append_eq_left]

end CmdFields

/-! The two mode selectors are the low bits of SUB (R82). -/

theorem cmdModeSel_eq_cmdSub (w : Word) : cmdModeSel w = (cmdSub w).setWidth 2 :=
  (BitVec.setWidth_extractLsb'_of_le (by decide)).symm

theorem cmdModeSel3_eq_cmdSub (w : Word) : cmdModeSel3 w = (cmdSub w).setWidth 3 :=
  (BitVec.setWidth_extractLsb'_of_le (by decide)).symm

theorem leBytes_four (w : Word) :
    leBytes 4 w.toNat = [w.extractLsb' 0 8, w.extractLsb' 8 8, w.extractLsb' 16 8, w.extractLsb' 24 8] := by
  simp [leBytes, BitVec.extractLsb', Nat.shiftRight_eq_div_pow, Nat.div_div_eq_div_mul]

theorem laneWord_of_bytes (w : Word) :
    laneWord (w.extractLsb' 0 8) (w.extractLsb' 8 8) (w.extractLsb' 16 8) (w.extractLsb' 24 8) = w := by
  apply BitVec.eq_of_getLsbD_eq
  intro i hi
  simp only [laneWord, BitVec.getLsbD_or, BitVec.getLsbD_shiftLeft, BitVec.getLsbD_setWidth,
    BitVec.getLsbD_extractLsb']
  grind

/-- A command word sent in its four byte lanes is that word again (R65, R80). -/
theorem decode_command_leBytes (w : Word) : decode .command (leBytes 4 w.toNat) = .ok (decodeCmd w) := by
  have hrun : runWord (leBytes 4 w.toNat) 0 = w := by
    rw [leBytes_four]
    exact laneWord_of_bytes w
  rw [decode, hrun]
  rfl

theorem decode_command {w : Word} {i : Instr} (h : decodeCmd w = i) :
    decode .command (leBytes 4 w.toNat) = .ok i := by
  rw [decode_command_leBytes, h]

/-! OP of a reserved command is its fixed bits and the open ones (R86). -/

theorem decodeCmd_reservedAB_word : ∀ low : BitVec 1, decodeCmd (cmdWord (5#3 ++ low) 0 0 0 0) = .reservedAB low := by
  decide

theorem decodeCmd_reservedCF_word : ∀ low : BitVec 2, decodeCmd (cmdWord (3#2 ++ low) 0 0 0 0) = .reservedCF low := by
  decide

/-! The wire formats (R88 to R94). -/

theorem relayModeOfByte_relayModeByte (m : RelayMode) : relayModeOfByte (relayModeByte m) = some m := by
  cases m <;> rfl

theorem decodeRequest_relay (a r d cl ch : Byte) (m : RelayMode) :
    decodeRequest (relayBody a r m d ++ [cl, ch]) = .ok (.wrqRelay a r m d cl ch) := by
  change decodeWriteRequest a r (relayModeByte m) d cl ch = _
  rw [decodeWriteRequest, relayModeOfByte_relayModeByte]

theorem decodeRequest_ilock (a cl ch : Byte) (m : IlockMode) :
    decodeRequest (ilockBody a m ++ [cl, ch]) = .ok (.wrqIlock a m cl ch) := by
  cases m <;> rfl

/-- A received frame is told by its function code (R92, R93, R94). -/
theorem decodeResponse_wireFrame (a f cl ch : Byte) {payload : Frame} (h : payloadFits payload = true) :
    decodeResponse (wireFrame a f payload cl ch) =
      .ok (if f = 0x03 then .wrsRead a payload cl ch
        else if f = 0x06 then .wrsAck a payload cl ch
        else .wrsOther a f payload cl ch) := by
  simp only [payloadFits, decide_eq_true_eq] at h
  have hshort : ¬ (payload ++ [cl, ch]).length < 2 := by simp
  have hlong : ¬ Config.longestFrame < (a :: f :: (payload ++ [cl, ch])).length := by simp; omega
  have hpayload : (payload ++ [cl, ch]).take ((payload ++ [cl, ch]).length - 2) = payload := by simp
  have hcl : byteAt (payload ++ [cl, ch]) ((payload ++ [cl, ch]).length - 2) = cl := by simp [byteAt]
  have hch : byteAt (payload ++ [cl, ch]) ((payload ++ [cl, ch]).length - 1) = ch := by simp [byteAt]
  rw [wireFrame, decodeResponse, if_neg hshort, if_neg hlong, hpayload, hcl, hch]
  simp only [beq_iff_eq, apply_ite Except.ok]

theorem decode_encode {i : Instr} (h : i.wf = true) : decode i.channel (encode i) = .ok i := by
  cases i with
  | nop | encRelayRsv | crcInit | rxPop | rxAbort | cntClear | reserved9 => exact decode_command rfl
  | encRead a => exact decode_command (by rw [decodeCmd_encRead (cmdOp_cmdWord ..), cmdF0_cmdWord])
  | encRelayOn a r d =>
    exact decode_command (by simp [decodeCmd_encRelayOn, cmdModeSel_eq_cmdSub])
  | encRelayOff a r d =>
    exact decode_command (by simp [decodeCmd_encRelayOff, cmdModeSel_eq_cmdSub])
  | encRelayMoment a r d =>
    exact decode_command (by simp [decodeCmd_encRelayMoment, cmdModeSel_eq_cmdSub])
  | encIlock a sel => exact decode_command (by simp [decodeCmd_encIlock, cmdModeSel3_eq_cmdSub])
  | crcByte x => exact decode_command (by rw [decodeCmd_crcByte (cmdOp_cmdWord ..), cmdF0_cmdWord])
  | reservedAB low => exact decode_command (decodeCmd_reservedAB_word low)
  | reservedCF low => exact decode_command (decodeCmd_reservedCF_word low)
  | rxByte x | tick | wrqRead a cl ch => rfl
  | wrqRelay a r m d cl ch => exact decodeRequest_relay a r d cl ch m
  | wrqIlock a m cl ch => exact decodeRequest_ilock a cl ch m
  | wrsRead a payload cl ch => exact decodeResponse_wireFrame a 0x03 cl ch h
  | wrsAck a payload cl ch => exact decodeResponse_wireFrame a 0x06 cl ch h
  | wrsOther a f payload cl ch =>
    simp only [Instr.wf, Bool.and_eq_true, bne_iff_ne] at h
    obtain ⟨⟨hfits, hread⟩, hack⟩ := h
    refine (decodeResponse_wireFrame a f cl ch hfits).trans ?_
    rw [if_neg hread, if_neg hack]

/-- Settles O4: `decode_encode`. -/
theorem decodeOfEncodeIsTheInstruction : Obligations.DecodeOfEncodeIsTheInstruction := by
  unfold Obligations.DecodeOfEncodeIsTheInstruction
  exact fun _ => decode_encode

end Sys2Proof.Machine
end

section
/-! What a command word does not name it ignores (R82), the worked words of the encodings, and a step as the
instruction of its event (R5, R25). -/

namespace Sys2Proof.Machine

/-- The bits that RESERVED.A-B and RESERVED.C-F leave open are the low bits of OP (R86). -/
theorem setWidth_cmdOp (w : Word) {k : Nat} (hk : k ≤ 4) : (cmdOp w).setWidth k = w.extractLsb' 0 k :=
  BitVec.setWidth_extractLsb'_of_le hk

theorem extractLsb'_congr_of_cmdOp {w w' : Word} (h : cmdOp w = cmdOp w') {k : Nat} (hk : k ≤ 4) :
    w.extractLsb' 0 k = w'.extractLsb' 0 k := by
  rw [← setWidth_cmdOp w hk, h, setWidth_cmdOp w' hk]

/-- Beside the selector, a relay command names F0, F1 and F2, unless the selector is the reserved one (R164). -/
theorem decodeRelay_congr {w w' : Word} (hsel : cmdModeSel w = cmdModeSel w')
    (hfields : cmdModeSel w ≠ 3 → cmdF0 w = cmdF0 w' ∧ cmdF1 w = cmdF1 w' ∧ cmdF2 w = cmdF2 w') :
    decodeRelay w = decodeRelay w' := by
  by_cases hrsv : cmdModeSel w = 3
  · have hrsv' : cmdModeSel w' = 3 := hsel ▸ hrsv
    simp [decodeRelay, hrsv, hrsv']
  · obtain ⟨h0, h1, h2⟩ := hfields hrsv
    simp only [decodeRelay, hsel, h0, h1, h2]

/-- Settles O3: per OP, the operands of the command are the fields that agree. -/
theorem unnamedCommandBitsAreIgnored : Obligations.UnnamedCommandBitsAreIgnored := by
  unfold Obligations.UnnamedCommandBitsAreIgnored
  intro w w' hop hf0 hsel hrelay hsel3
  have hcase {k : BitVec 4} (h : (cmdOp w').toNat = k.toNat) : cmdOp w = k := hop.trans (BitVec.eq_of_toNat_eq h)
  unfold decodeCmd
  rw [hop]
  split
  case h_2 h => rw [hf0 (.inl (hcase (k := 0x1) h))]
  case h_3 h => exact decodeRelay_congr (hsel (hcase (k := 0x2) h)) (hrelay (hcase (k := 0x2) h))
  case h_4 h => rw [hf0 (.inr (.inl (hcase (k := 0x3) h))), hsel3 (hcase (k := 0x3) h)]
  case h_6 h => rw [hf0 (.inr (.inr (hcase (k := 0x5) h)))]
  case h_11 => rw [extractLsb'_congr_of_cmdOp hop (by decide)]
  case h_12 => rw [extractLsb'_congr_of_cmdOp hop (by decide)]
  case h_13 => rw [extractLsb'_congr_of_cmdOp hop (by decide)]
  all_goals rfl

/-- Settles O5: `encode_of_decode_wire`. -/
theorem decodedWireFramesKeepEveryByte : Obligations.DecodedWireFramesKeepEveryByte := by
  unfold Obligations.DecodedWireFramesKeepEveryByte
  exact encode_of_decode_wire

/-- Settles O1: each word is decoded by evaluation. -/
theorem commandWordsDecodeToTheirCommands : Obligations.CommandWordsDecodeToTheirCommands := by
  unfold Obligations.CommandWordsDecodeToTheirCommands
  decide

/-- Settles O6: the command by `decode_command_leBytes`, the other events as `step` takes them. -/
theorem stepRunsTheDecodedInstruction : Obligations.StepRunsTheDecodedInstruction := by
  unfold Obligations.StepRunsTheDecodedInstruction
  refine ⟨fun s c q v i hq hreset hhost hdec => ?_, fun s c q hq hreset hhost htick => ?_,
    fun s c q x hq hreset hhost htick hrx => ?_, fun s d bs q i hq hdec => ?_⟩
  · obtain rfl : decodeCmd v = i := by simpa [decode_command_leBytes] using hdec
    simp only [step, hq, stepCycle, cycleEvent, cycleRest, hreset, hhost]
    rfl
  · simp only [step, hq, stepCycle, cycleEvent, cycleRest, hreset, hhost, htick]
    rfl
  · simp only [step, hq, stepCycle, cycleEvent, cycleRest, hreset, hhost, htick, hrx]
    rfl
  · simp only [step, hq, stepFrame, hdec]
    rfl

end Sys2Proof.Machine
end

section
/-! A loopback of an encoded request decodes (R96, R160). -/

namespace Sys2Proof.Machine

/-- TXBUF holds a six-byte body and its CRC, in wire order (R160). -/
theorem encodeTx_toFrame {body : Frame} (h : body.length = 6) (b : Block) :
    (b.encodeTx body).txbuf.toFrame = crcAppend body := by
  match body, h with
  | [_, _, _, _, _, _], _ => rfl

theorem frameCrcOk_crcAppend {s : Frame} (h : 2 ≤ s.length) : frameCrcOk (crcAppend s) = true := by
  rw [frameCrcOk_iff, crcAppend_length]
  exact ⟨by omega, crcVerify_crcAppend s⟩

theorem crcBytesOf_crc16 (body : Frame) : crcBytesOf body (lowByte (crc16 body)) (highByte (crc16 body)) = true := by
  simp [crcBytesOf]

/-- The encode commands (R162, R163, R165). -/
def EncodeCmd (i : Instr) : Prop :=
  (∃ a, i = .encRead a) ∨ (∃ a r d, i = .encRelayOn a r d ∨ i = .encRelayOff a r d ∨ i = .encRelayMoment a r d) ∨
    (∃ a sel, i = .encIlock a sel)

/-- Every encode command runs the encode step on the body of a request that is well formed with its CRC (R89, R90,
R91). -/
theorem instrBlock_of_encodeCmd {i : Instr} (h : EncodeCmd i) (p : Params) (b : Block) :
    ∃ body : Frame, ∃ req : Instr, body.length = 6 ∧ instrBlock p i b = b.encodeTx body ∧
      req.wf = true ∧ req.channel = .request ∧ encode req = crcAppend body := by
  rcases h with ⟨a, rfl⟩ | ⟨a, r, d, rfl | rfl | rfl⟩ | ⟨a, sel, rfl⟩
  · exact ⟨readBody a, .wrqRead a _ _, rfl, rfl, crcBytesOf_crc16 _, rfl, rfl⟩
  · exact ⟨relayBody a r .on d, .wrqRelay a r .on d _ _, rfl, rfl, crcBytesOf_crc16 _, rfl, rfl⟩
  · exact ⟨relayBody a r .off d, .wrqRelay a r .off d _ _, rfl, rfl, crcBytesOf_crc16 _, rfl, rfl⟩
  · exact ⟨relayBody a r .moment d, .wrqRelay a r .moment d _ _, rfl, rfl, crcBytesOf_crc16 _, rfl, rfl⟩
  · exact ⟨ilockBody a (ilockModeOfSel sel), .wrqIlock a (ilockModeOfSel sel) _ _, rfl, rfl, crcBytesOf_crc16 _, rfl,
      rfl⟩

/-- Settles O36: TXBUF is `crcAppend` of the body, which verifies and encodes a well-formed request, and
`decode_encode` reads that request back. -/
theorem encodedFramesAreValidRequests : Obligations.EncodedFramesAreValidRequests := by
  unfold Obligations.EncodedFramesAreValidRequests
  intro i s t hi hst
  obtain rfl : instrState i s = t := by simpa [exec_eq] using hst
  obtain ⟨body, req, hlen, hblock, hwf, hchannel, henc⟩ := instrBlock_of_encodeCmd hi s.params s.block
  rw [instrState_block, hblock, encodeTx_toFrame hlen]
  refine ⟨frameCrcOk_crcAppend (by omega), req, hwf, ?_⟩
  rw [← henc, ← hchannel]
  exact decode_encode hwf

end Sys2Proof.Machine
end

section
/-! A step takes one event, and the events of a cycle one after the other (R5, R229). -/

namespace Sys2Proof.Machine

theorem step_of_event {s : State} {e : Event} (h : nextEvent s.inputs = some e) :
    step s = stepEvent e (s.withInputs (restInputs s.inputs)) := by
  rw [step_eq_stepState, stepEvent_eq, stepState, h]

theorem step_of_none {s : State} (h : nextEvent s.inputs = none) :
    step s = .next ((s.withInputs (restInputs s.inputs)).withRdata none) := by
  rw [step_eq_stepState, stepState, h]

/-- Settles O9: `step_of_event` and `step_of_none`. -/
theorem nothingHappensWithoutAnEvent : Obligations.NothingHappensWithoutAnEvent := by
  unfold Obligations.NothingHappensWithoutAnEvent
  refine ⟨fun s hq => ?_, fun s q hq => ?_, fun s e => step_of_event, fun s => step_of_none,
    fun s d x bs q hq => ?_, fun s t hst => ?_⟩
  · have hrest : restInputs s.inputs = s.inputs := by rw [hq]; rfl
    rw [step_of_none (by rw [hq]; rfl), hrest]
    rfl
  · rw [step_of_none (by rw [hq]; rfl), hq]
    rfl
  · rw [hq]
    exact ⟨rfl, rfl⟩
  · rw [eq_stepState_of_step hst, stepState_params]

/-- A cycle without reset that still holds an event takes the first of its events and leaves the others (R229). -/
theorem exists_first_event {c : Cycle} (hreset : c.reset = false) {e : Event} {es : List Event}
    (hes : cycleEvents c = e :: es) (q : List Input) :
    ∃ c' : Cycle, c'.reset = false ∧ cycleEvents c' = es ∧ cycleEvent c = some e ∧
      cycleRest c q = requeue c' q := by
  obtain ⟨reset, host, tick, rx⟩ := c
  obtain rfl : reset = false := hreset
  cases host with
  | some a =>
    obtain ⟨rfl, rfl⟩ := List.cons.inj hes
    exact ⟨⟨false, none, tick, rx⟩, rfl, rfl, rfl, rfl⟩
  | none =>
    cases tick with
    | true =>
      obtain ⟨rfl, rfl⟩ := List.cons.inj hes
      exact ⟨⟨false, none, false, rx⟩, rfl, rfl, rfl, rfl⟩
    | false =>
      cases rx with
      | some x =>
        obtain ⟨rfl, rfl⟩ := List.cons.inj hes
        exact ⟨⟨false, none, false, none⟩, rfl, rfl, rfl, rfl⟩
      | none => cases hes

theorem cycleEvents_eq_nil_iff (c : Cycle) :
    cycleEvents c = [] ↔ c.host = none ∧ c.tick = false ∧ c.rx = none := by
  simp [cycleEvents]

theorem core_run_succ {s t : State} (h : step s = .next t) (n : Nat) :
    Host.Core.run Sys2Proof.core (n + 1) s = Host.Core.run Sys2Proof.core n t := by
  have hcore : Sys2Proof.core.step s = .next t := h
  simp only [Host.Core.run, hcore]

theorem requeue_eq {c : Cycle} (hreset : c.reset = false) (q : List Input) :
    requeue c q = if cycleEvents c = [] then q else .cycle c :: q := by
  by_cases h : cycleEvents c = []
  · obtain ⟨hhost, htick, hrx⟩ := (cycleEvents_eq_nil_iff c).1 h
    rw [if_pos h]
    simp [requeue, hreset, hhost, htick, hrx]
  · rw [if_neg h, requeue, if_pos]
    rw [cycleEvents_eq_nil_iff] at h
    simp only [Bool.or_eq_true, Option.isSome_iff_ne_none]
    grind

/-- The steps that take the events of a cycle are a run over those events (R229). -/
theorem run_cycle {c : Cycle} (hreset : c.reset = false) (s : State) (q : List Input) :
    Host.Core.run Sys2Proof.core (cycleEvents c).length (s.withInputs (requeue c q)) =
      runEvents (cycleEvents c) (s.withInputs q) := by
  induction hes : cycleEvents c generalizing c s with
  | nil => rw [requeue_eq hreset, if_pos hes]; rfl
  | cons e es ih =>
    obtain ⟨c', hreset', rfl, hfirst, hrest⟩ := exists_first_event hreset hes q
    have hqueue : requeue c q = .cycle c :: q := by rw [requeue_eq hreset, if_neg (by simp [hes])]
    have hstep : step (s.withInputs (requeue c q)) = .next ((eventState e s).withInputs (requeue c' q)) := by
      have hnext : nextEvent (s.withInputs (.cycle c :: q)).inputs = some e := hfirst
      rw [hqueue, step_of_event hnext, stepEvent_eq, ← hrest]
      simp [restInputs]
    have hevents : runEvents (e :: cycleEvents c') (s.withInputs q) =
        runEvents (cycleEvents c') ((eventState e s).withInputs q) := by
      rw [runEvents, stepEvent_eq, eventState_withInputs]
    rw [hevents, ← ih hreset' _ rfl, List.length_cons, core_run_succ hstep]

/-- Settles O7: a reset cycle by `step_reset`, any other by `run_cycle`. -/
theorem cycleEventsRunInTheFixedOrder : Obligations.CycleEventsRunInTheFixedOrder := by
  unfold Obligations.CycleEventsRunInTheFixedOrder
  refine ⟨fun s c q => step_reset, fun s c q hq hreset hne => ?_⟩
  have hqueue : s.withInputs (requeue c q) = s := by
    rw [requeue_eq hreset, if_neg hne, ← hq, State.withInputs_self]
  have hrun := run_cycle hreset s q
  rwa [hqueue] at hrun

end Sys2Proof.Machine
end

section
/-! Reset and the idle block: R39 after reset, and nothing in ASM while EN is 0 (R39, R131, R139). -/

namespace Sys2Proof.Machine

/-- Settles O11: `reset_inv`; the recommended parameters are legal. -/
theorem resetStateMeetsTheStateInvariants : Obligations.ResetStateMeetsTheStateInvariants := by
  unfold Obligations.ResetStateMeetsTheStateInvariants
  have hrecommended : Params.recommended.Legal := by decide
  exact ⟨fun p hp => ⟨hp, reset_inv hp⟩, hrecommended, reset_inv hrecommended⟩

/-- Settles O25: the values by evaluation. -/
theorem crcWorkedValues : Obligations.CrcWorkedValues := by
  unfold Obligations.CrcWorkedValues
  decide +kernel

/-- While EN is 0 the delimiter is idle (R139). -/
def Block.IdleWhileDisabled (b : Block) : Prop := b.en = false → b.asm = [] ∧ b.sil = 0

section Idle

variable {p : Params} {b : Block}

theorem Block.IdleWhileDisabled.of_en (h : b.en = true) : b.IdleWhileDisabled :=
  fun hoff => absurd (h.symm.trans hoff) (by decide)

variable (h : b.IdleWhileDisabled)
include h

theorem Block.IdleWhileDisabled.of_sameDelimiter {c : Block} (hc : b.SameDelimiter c) : c.IdleWhileDisabled := by
  rw [Block.IdleWhileDisabled, hc.en, hc.asm, hc.sil]
  exact h

theorem rxByte_idleWhileDisabled (x : Byte) : (b.rxByte p x).IdleWhileDisabled := by
  rcases rxByte_cases p x b with ⟨_, e⟩ | ⟨hen, _, e⟩ | ⟨hen, _, e⟩ <;> rw [e]
  · exact h
  · exact .of_en hen
  · exact .of_en (by simpa using hen)

theorem tick_idleWhileDisabled : (b.tick p).IdleWhileDisabled := by
  rcases tick_cases p b with ⟨_, e⟩ | ⟨hasm, _, e⟩ | ⟨_, _, e⟩ <;> rw [e]
  · exact h
  · exact fun hoff => absurd (h hoff).1 hasm
  · exact fun _ => ⟨closeFrame_asm _ _, closeFrame_sil _ _⟩

theorem instrBlock_idleWhileDisabled (i : Instr) : (instrBlock p i b).IdleWhileDisabled := by
  cases i with
  | rxAbort => exact fun _ => ⟨rfl, rfl⟩
  | rxByte x => exact rxByte_idleWhileDisabled h x
  | tick => exact tick_idleWhileDisabled h
  | wrqRead a | wrqRelay a | wrqIlock a | wrsRead a | wrsAck a | wrsOther a => exact rxByte_idleWhileDisabled h a
  | _ => exact h

/-- Taking EN from 1 to 0 empties ASM, and with EN 0 before it was empty (R139). -/
theorem writeCtrl_idleWhileDisabled (v : Word) : (b.writeCtrl v).IdleWhileDisabled := by
  intro hoff
  rw [Block.writeCtrl_en] at hoff
  rw [Block.writeCtrl_asm, Block.writeCtrl_sil, Block.clearsEn, hoff]
  cases hen : b.en with
  | true => exact ⟨rfl, rfl⟩
  | false => exact h hen

theorem hostWrite_idleWhileDisabled (off n : Nat) (v : Word) : (hostWrite off n v b).IdleWhileDisabled := by
  rcases hostWrite_cases off n v b with ⟨_, _, e⟩ | ⟨_, _, e⟩ | ⟨_, _, e⟩ | ⟨_, e⟩ <;> rw [e]
  · exact writeCtrl_idleWhileDisabled h v
  all_goals exact h

theorem eventBlock_idleWhileDisabled (e : Event) : (eventBlock p e b).IdleWhileDisabled := by
  rcases eventBlock_cases p e b with ⟨i, _, he⟩ | ⟨_, _, he⟩ | ⟨off, n, v, _, _, he⟩ | ⟨_, _, _, he⟩ <;> rw [he]
  · exact instrBlock_idleWhileDisabled h i
  · exact fun _ => ⟨rfl, rfl⟩
  · exact hostWrite_idleWhileDisabled h off n v
  · exact h

end Idle

/-- Settles O13: a step does what its one event does, and every event keeps it. -/
theorem nothingIsAssembledWhileDisabled : Obligations.NothingIsAssembledWhileDisabled := by
  unfold Obligations.NothingIsAssembledWhileDisabled
  intro s t h hst
  rw [eq_stepState_of_step hst]
  rcases stepState_block_cases s with ⟨e, _, he⟩ | ⟨_, he⟩ <;> rw [he]
  · exact eventBlock_idleWhileDisabled h e
  · exact h

end Sys2Proof.Machine
end

section
/-! What the host relies on between its own accesses: the sticky bits stay until cleared (R41), and the head entry
until popped (R202, R256). -/

namespace Sys2Proof.Machine

/-- Every sticky bit that is set in `b` is set in `c`. -/
structure Block.StickyKept (b c : Block) : Prop where
  cmderr : b.cmderr = true → c.cmderr = true
  droperr : b.droperr = true → c.droperr = true
  crcerr : b.crcerr = true → c.crcerr = true

theorem Block.StickyKept.refl (b : Block) : b.StickyKept b := ⟨id, id, id⟩

section Sticky

variable (p : Params) (b : Block)

theorem raise_stickyKept (e : ErrorEvent) : b.StickyKept (b.raise e) := by
  cases e
  · exact ⟨fun _ => rfl, id, id⟩
  · exact ⟨id, fun _ => rfl, id⟩
  · exact ⟨id, id, fun _ => rfl⟩

theorem closeFrame_stickyKept : b.StickyKept (b.closeFrame p) := by
  rw [closeFrame_eq]
  exact ⟨id, fun h => by simp only [h, ite_self], fun h => by simp only [h, ite_self]⟩

theorem rxByte_stickyKept (x : Byte) : b.StickyKept (b.rxByte p x) := by
  rcases rxByte_cases p x b with ⟨_, e⟩ | ⟨_, _, e⟩ | ⟨_, _, e⟩ <;> rw [e]
  · exact .refl b
  · exact ⟨id, id, id⟩
  · exact { closeFrame_stickyKept p (b.acceptByte x) with }

theorem tick_stickyKept : b.StickyKept (b.tick p) := by
  rcases tick_cases p b with ⟨_, e⟩ | ⟨_, _, e⟩ | ⟨_, _, e⟩ <;> rw [e]
  · exact .refl b
  · exact ⟨id, id, id⟩
  · exact { closeFrame_stickyKept p b.countSilence with }

theorem instrBlock_stickyKept (i : Instr) : b.StickyKept (instrBlock p i b) := by
  cases i with
  | encRelayRsv | reserved9 | reservedAB | reservedCF => exact raise_stickyKept b .cmdReserved
  | rxByte x => exact rxByte_stickyKept p b x
  | tick => exact tick_stickyKept p b
  | wrqRead a | wrqRelay a | wrqIlock a | wrsRead a | wrsAck a | wrsOther a => exact rxByte_stickyKept p b a
  | _ => exact ⟨id, id, id⟩

/-- All an event can do to the sticky bits: keep them, clear those a STATUS write names, or reset them (R41). -/
theorem eventBlock_sticky_cases (e : Event) :
    b.StickyKept (eventBlock p e b) ∨
    (∃ v, e = .access (.write 0x00C 4 v) ∧ eventBlock p e b = b.clearSticky v) ∨
    (∃ a, e = .reset a) := by
  rcases eventBlock_cases p e b with ⟨i, _, he⟩ | ⟨a, rfl, _⟩ | ⟨off, n, v, rfl, _, he⟩ | ⟨_, _, _, he⟩
  · exact .inl (he ▸ instrBlock_stickyKept p b i)
  · exact .inr (.inr ⟨a, rfl⟩)
  · rcases hostWrite_cases off n v b with ⟨_, _, hw⟩ | ⟨_, _, hw⟩ | ⟨rfl, rfl, hw⟩ | ⟨_, hw⟩
    · exact .inl (by rw [he, hw]; exact ⟨id, id, id⟩)
    · exact .inl (by rw [he, hw]; exact ⟨id, id, id⟩)
    · exact .inr (.inl ⟨v, rfl, he.trans hw⟩)
    · exact .inl (by rw [he, hw]; exact .refl b)
  · exact .inl (by rw [he]; exact .refl b)

end Sticky

theorem stepState_sticky_cases (s : State) :
    s.block.StickyKept (stepState s).block ∨
    (∃ v, nextEvent s.inputs = some (.access (.write 0x00C 4 v)) ∧ (stepState s).block = s.block.clearSticky v) ∨
    (∃ a, nextEvent s.inputs = some (.reset a)) := by
  rcases stepState_block_cases s with ⟨e, hev, he⟩ | ⟨_, he⟩ <;> rw [he]
  · simpa only [hev, Option.some_inj] using eventBlock_sticky_cases s.params s.block e
  · exact .inl (.refl _)

/-- Settles O59: by `stepState_sticky_cases`, and `clearSticky` clears a bit only with a 1 in its place. -/
theorem stickyBitsClearOnlyByHostOrReset : Obligations.StickyBitsClearOnlyByHostOrReset := by
  unfold Obligations.StickyBitsClearOnlyByHostOrReset
  intro s t hst
  rw [eq_stepState_of_step hst]
  rcases stepState_sticky_cases s with ⟨hcmd, hdrop, hcrc⟩ | ⟨v, hev, hclear⟩ | hreset
  · exact ⟨fun hset hclr => absurd (hcmd hset) (Bool.eq_false_iff.1 hclr),
      fun hset hclr => absurd (hdrop hset) (Bool.eq_false_iff.1 hclr),
      fun hset hclr => absurd (hcrc hset) (Bool.eq_false_iff.1 hclr)⟩
  · rw [hclear]
    refine ⟨fun hset hclr => .inr ⟨v, hev, ?_⟩, fun hset hclr => .inr ⟨v, hev, ?_⟩,
      fun hset hclr => .inr ⟨v, hev, ?_⟩⟩
    all_goals simpa [hset] using hclr
  · exact ⟨fun _ _ => .inl hreset, fun _ _ => .inl hreset, fun _ _ => .inl hreset⟩

theorem rxByte_incount (p : Params) (x : Byte) (b : Block) : (b.rxByte p x).incount = b.incount := by
  rcases rxByte_cases p x b with h | h | h <;> simp [h]

theorem tick_incount (p : Params) (b : Block) : (b.tick p).incount = b.incount := by
  rcases tick_cases p b with h | h | h <;> simp [h]

theorem instrBlock_incount (p : Params) (i : Instr) (b : Block) : (instrBlock p i b).incount = b.incount := by
  cases i with
  | rxByte x => exact rxByte_incount p x b
  | tick => exact tick_incount p b
  | wrqRead a | wrqRelay a | wrqIlock a | wrsRead a | wrsAck a | wrsOther a => exact rxByte_incount p a b
  | _ => rfl

/-- INCOUNT changes only by a CFG write and by reset (R24). -/
theorem eventBlock_incount (p : Params) (b : Block) {e : Event} (hreset : ∀ a, e ≠ .reset a)
    (hcfg : ∀ v, e ≠ .access (.write 0x004 4 v)) : (eventBlock p e b).incount = b.incount := by
  rcases eventBlock_cases p e b with ⟨i, _, he⟩ | ⟨a, rfl, _⟩ | ⟨off, n, v, rfl, _, he⟩ | ⟨_, _, _, he⟩
  · rw [he, instrBlock_incount]
  · exact absurd rfl (hreset a)
  · rw [he]
    rcases hostWrite_cases off n v b with ⟨_, _, hw⟩ | ⟨rfl, rfl, _⟩ | ⟨_, _, hw⟩ | ⟨_, hw⟩
    · rw [hw, Block.writeCtrl_incount]
    · exact absurd rfl (hcfg v)
    · rw [hw, Block.clearSticky_incount]
    · rw [hw]
  · rw [he]

/-- An entry behind which frames are added stays the head; only RX_POP and reset take it away (R198). -/
theorem eventBlock_head? (p : Params) {b : Block} {e : Event} (hne : b.fifo ≠ [])
    (hpop : eventInstr e ≠ some .rxPop) (hreset : ∀ a, e ≠ .reset a) :
    (eventBlock p e b).fifo.head? = b.fifo.head? := by
  rcases eventBlock_fifo_cases p e b with ⟨added, hfifo⟩ | ⟨hi, _⟩ | ⟨a, ha, _⟩
  · rw [← hfifo, List.head?_append_of_ne_nil _ hne]
  · exact absurd hi hpop
  · exact absurd ha (hreset a)

/-- Settles O57: a decoded register is a field of the head entry and INCOUNT (`exists_field_of_decodedOffset`), and
the event changes neither. -/
theorem theHeadEntryHoldsBetweenPops : Obligations.TheHeadEntryHoldsBetweenPops := by
  unfold Obligations.TheHeadEntryHoldsBetweenPops
  intro s t off n hst hne hpop hreset hcfg hoff
  obtain ⟨field, hfield⟩ := exists_field_of_decodedOffset hoff n
  rw [eq_stepState_of_step hst, hfield, hfield]
  rcases stepState_block_cases s with ⟨e, hev, he⟩ | ⟨_, he⟩ <;> rw [he]
  simp only [hev, Option.bind_some, ne_eq, Option.some_inj] at hpop hreset hcfg
  rw [eventBlock_incount _ _ hreset hcfg, headWord_congr (eventBlock_head? _ hne hpop hreset)]

end Sys2Proof.Machine
end

section
/-! When a frame is delivered: at the QUIET-th tick (R137), and in real time to one tick period (R138). -/

namespace Sys2Proof.Machine

theorem runEvents_block (es : List Event) (s : State) :
    ∃ t, runEvents es s = .next t ∧ t.block = es.foldl (fun b e => eventBlock s.params e b) s.block :=
  ⟨_, runEvents_eq es s, foldl_eventState_block es s⟩

theorem satInc_ofNat {k : Nat} (hk : k + 1 < 2 ^ 16) : satInc (BitVec.ofNat 16 k) = BitVec.ofNat 16 (k + 1) := by
  apply BitVec.eq_of_toNat_eq
  rw [satInc_toNat, BitVec.toNat_ofNat, BitVec.toNat_ofNat]
  omega

/-- Fewer ticks than the quiet window leave the frame in ASM and only count the silence (R132, R137). -/
theorem foldl_ticks_of_short (p : Params) {b : Block} (hasm : b.asm ≠ []) (hsil : b.sil = 0) {k : Nat}
    (hk : k < b.quiet.toNat) :
    (List.replicate k .tick).foldl (fun b e => eventBlock p e b) b = { b with sil := BitVec.ofNat 16 k } := by
  induction k with
  | zero => exact congrArg (fun sil => { b with sil := sil }) hsil
  | succ k ih =>
    have hq := b.quiet.isLt
    have hshort : (satInc (BitVec.ofNat 16 k)).toNat < b.quiet.toNat := by
      rw [satInc_ofNat (by omega), BitVec.toNat_ofNat]
      omega
    rw [List.replicate_succ', List.foldl_append, ih (by omega), List.foldl_cons, List.foldl_nil, eventBlock_tick,
      tick_of_short (b := { b with sil := BitVec.ofNat 16 k }) hasm hshort, Block.countSilence, satInc_ofNat (by omega)]

/-- The tick that reaches the quiet window closes the frame (R132, R137). -/
theorem foldl_ticks_of_quiet (p : Params) {b : Block} (hasm : b.asm ≠ []) (hsil : b.sil = 0)
    (hquiet : 1 ≤ b.quiet.toNat) :
    (List.replicate b.quiet.toNat .tick).foldl (fun b e => eventBlock p e b) b =
      Block.closeFrame p { b with sil := b.quiet } := by
  obtain ⟨k, hk⟩ : ∃ k, b.quiet.toNat = k + 1 := ⟨b.quiet.toNat - 1, by omega⟩
  have hlt := b.quiet.isLt
  have hreach : satInc (BitVec.ofNat 16 k) = b.quiet := by
    rw [satInc_ofNat (by omega), ← hk, BitVec.ofNat_toNat, BitVec.setWidth_eq]
  rw [hk, List.replicate_succ', List.foldl_append, foldl_ticks_of_short p hasm hsil (by omega), List.foldl_cons,
    List.foldl_nil, eventBlock_tick,
    tick_of_quiet (b := { b with sil := BitVec.ofNat 16 k }) hasm (by rw [hreach]), Block.countSilence, hreach]

/-- Settles O42: the ticks by `foldl_ticks_of_short` and `foldl_ticks_of_quiet`, the filling byte by
`rxByte_of_full`. -/
theorem framesAreDeliveredAtTheQuietTick : Obligations.FramesAreDeliveredAtTheQuietTick := by
  unfold Obligations.FramesAreDeliveredAtTheQuietTick
  rintro s x ⟨_, _, _, _, _, ⟨hquiet, _⟩, _⟩ hen
  have hne : (s.block.acceptByte x).asm ≠ [] := by simp
  refine ⟨fun hroom => ⟨fun k hk => ?_, ?_⟩, fun hfull => ?_⟩
  · obtain ⟨t, hrun, hblock⟩ := runEvents_block (.rxByte x :: List.replicate k .tick) s
    rw [List.foldl_cons, eventBlock_rxByte, rxByte_of_room hen (Nat.ne_of_lt hroom),
      foldl_ticks_of_short _ hne rfl hk] at hblock
    exact ⟨t, hrun, by rw [hblock]; rfl, by rw [hblock]; rfl⟩
  · obtain ⟨t, hrun, hblock⟩ := runEvents_block (.rxByte x :: List.replicate s.block.quiet.toNat .tick) s
    rw [List.foldl_cons, eventBlock_rxByte, rxByte_of_room hen (Nat.ne_of_lt hroom)] at hblock
    exact ⟨t, hrun, hblock.trans (foldl_ticks_of_quiet _ hne rfl hquiet)⟩
  · refine ⟨_, stepEvent_eq _ s, ?_⟩
    rw [eventState_block, eventBlock_rxByte, rxByte_of_full hen hfull]
    rfl

/-! The ticks between two times (R138). -/

theorem ticksBy_eq {P phase : Nat} (hphase : phase < P) (t : Nat) : ticksBy P phase t = (t + (P - phase)) / P := by
  unfold ticksBy
  split
  · next hearly => exact (Nat.div_eq_of_lt (by omega)).symm
  · next hlate =>
    have hsum : t + (P - phase) = t - phase + P := by omega
    rw [hsum, Nat.add_div_right _ (by omega)]

/-- A gap of at least `Q` periods has `Q` ticks, at every phase. -/
theorem le_ticksBetween {P phase Q g : Nat} (hphase : phase < P) (hg : Q * P ≤ g) (t0 : Nat) :
    Q ≤ ticksBetween P phase t0 (t0 + g) := by
  rw [ticksBetween, ticksBy_eq hphase, ticksBy_eq hphase]
  have hmono := Nat.div_le_div_right (c := P) (show t0 + (P - phase) + Q * P ≤ t0 + g + (P - phase) by omega)
  rw [Nat.add_mul_div_right _ _ (by omega)] at hmono
  omega

/-- A gap of at most `Q` periods has no more than `Q` ticks, at every phase. -/
theorem ticksBetween_le {P phase Q g : Nat} (hphase : phase < P) (hg : g ≤ Q * P) (t0 : Nat) :
    ticksBetween P phase t0 (t0 + g) ≤ Q := by
  rw [ticksBetween, ticksBy_eq hphase, ticksBy_eq hphase]
  have hmono := Nat.div_le_div_right (c := P) (show t0 + g + (P - phase) ≤ t0 + (P - phase) + Q * P by omega)
  rw [Nat.add_mul_div_right _ _ (by omega)] at hmono
  omega

/-- A byte in the cycle of a tick: the gap has as many ticks as whole periods. -/
theorem ticksBetween_phase_zero {P : Nat} (hP : 0 < P) (g : Nat) : ticksBetween P 0 0 (0 + g) = g / P := by
  rw [ticksBetween, ticksBy_eq hP, ticksBy_eq hP, Nat.zero_add, Nat.sub_zero, Nat.add_div_right _ hP, Nat.zero_add,
    Nat.div_self hP, Nat.add_sub_cancel]

/-- A byte just before a tick: the gap has a tick for each period begun. -/
theorem lt_ticksBetween_phase_one {P Q g : Nat} (hP : 1 < P) (hg : Q * P < g) :
    Q < ticksBetween P 1 0 (0 + g) := by
  rw [ticksBetween, ticksBy_eq hP, ticksBy_eq hP, Nat.div_eq_of_lt (show 0 + (P - 1) < P by omega), Nat.sub_zero,
    ← Nat.succ_le_iff, Nat.le_div_iff_mul_le (by omega), Nat.succ_mul]
  omega

theorem tickCount_replicate (n : Nat) : tickCount (List.replicate n .tick) = n := List.count_replicate_self

/-- After a byte that leaves room and a gap with `n` ticks, ASM is empty or still holds the byte, by the gap rule
(R136). -/
theorem asm_after_ticks {s : State} (x : Byte) (hs : s.Inv) (hen : s.block.en = true)
    (hroom : s.block.asm.length + 1 < s.params.maxFrame) (n : Nat) :
    ∃ t, runEvents (.rxByte x :: List.replicate n .tick) s = .next t ∧
      t.block.asm = if s.block.quiet.toNat ≤ n then [] else s.block.asm ++ [x] := by
  obtain ⟨t, hrun, _, hsilent⟩ := silentFor_of_byte_then_gap x (es := List.replicate n .tick) hs hen hroom
    fun e he => by rw [List.eq_of_mem_replicate he]; rfl
  rw [tickCount_replicate] at hsilent
  refine ⟨t, hrun, ?_⟩
  split
  · next hge => exact hsilent.closed hge
  · next hlt => exact (hsilent.pending (Nat.lt_of_not_le hlt)).1

/-- Settles O43: `asm_after_ticks` for the number of ticks in the gap, which `le_ticksBetween` and
`ticksBetween_le` bound for every phase; the phases 0 and 1 are those between. -/
theorem realTimeGapIsExactToOneTick : Obligations.RealTimeGapIsExactToOneTick := by
  unfold Obligations.RealTimeGapIsExactToOneTick
  intro s x g hs hen hroom P Q asmAfter
  have hQ : 1 ≤ Q := by
    obtain ⟨_, _, _, _, _, ⟨hquiet, _⟩, _⟩ := hs
    exact hquiet
  have hsplit {phase t0 : Nat} (hn : Q ≤ ticksBetween P phase t0 (t0 + g)) : asmAfter phase t0 [] := by
    obtain ⟨t, hrun, hasm⟩ := asm_after_ticks x hs hen hroom (ticksBetween P phase t0 (t0 + g))
    exact ⟨t, hrun, hasm.trans (if_pos hn)⟩
  have hjoin {phase t0 : Nat} (hn : ticksBetween P phase t0 (t0 + g) < Q) : asmAfter phase t0 (s.block.asm ++ [x]) := by
    obtain ⟨t, hrun, hasm⟩ := asm_after_ticks x hs hen hroom (ticksBetween P phase t0 (t0 + g))
    exact ⟨t, hrun, hasm.trans (if_neg (Nat.not_le_of_lt hn))⟩
  refine ⟨fun hg phase t0 hphase => hsplit (le_ticksBetween hphase hg t0), fun hg phase t0 hphase => ?_,
    fun hlo hhi => ?_⟩
  · have hle := ticksBetween_le hphase hg t0
    exact hjoin (by omega)
  · have hQP : Q * P = (Q - 1) * P + P := by rw [← Nat.succ_mul, Nat.succ_eq_add_one, Nat.sub_add_cancel hQ]
    have hP : 1 < P := by omega
    refine ⟨⟨1, 0, hP, hsplit ?_⟩, ⟨0, 0, by omega, hjoin ?_⟩⟩
    · have hlt := lt_ticksBetween_phase_one hP hlo
      omega
    · rw [ticksBetween_phase_zero (by omega), Nat.div_lt_iff_lt_mul (by omega)]
      exact hhi

end Sys2Proof.Machine
end

section
/-! A wire frame on the line: its bytes taken one a step (R60, R66, R97), and where they go (R131). -/

namespace Sys2Proof.Machine

/-- The block after a run of received bytes. -/
def Block.rxBytes (p : Params) (bs : Frame) (b : Block) : Block := bs.foldl (fun b x => b.rxByte p x) b

theorem rxBytes_cons (p : Params) (x : Byte) (bs : Frame) (b : Block) :
    b.rxBytes p (x :: bs) = (b.rxByte p x).rxBytes p bs := rfl

theorem runInstrs_rxBytes (bs : Frame) (s : State) :
    runInstrs (bs.map .rxByte) s = .next (s.withBlock (s.block.rxBytes s.params bs)) :=
  runInstrs_rxByte bs s

/-- The step that takes one byte from the line (R5). -/
theorem step_lineCycle (x : Byte) (q : List Input) (s : State) :
    step (s.withInputs (lineCycle x :: q)) =
      .next (((s.withBlock (s.block.rxByte s.params x)).withInputs q).withRdata none) := by
  rw [step_eq_stepState]
  rfl

/-- The steps that take the bytes on the line, a step for each, and one at least, clear the read-data output. -/
theorem run_lineCycles (x : Byte) (bs : Frame) (q : List Input) (s : State) :
    Host.Core.run Sys2Proof.core (bs.length + 1) (s.withInputs ((x :: bs).map lineCycle ++ q)) =
      .next (((s.withBlock (s.block.rxBytes s.params (x :: bs))).withInputs q).withRdata none) := by
  induction bs generalizing x s with
  | nil => exact core_run_succ (step_lineCycle x q s) 0
  | cons y bs ih =>
    exact (core_run_succ (step_lineCycle x ((y :: bs).map lineCycle ++ q) s) _).trans
      (ih y ((s.withBlock (s.block.rxByte s.params x)).withRdata none))

/-- A wire frame has four bytes or more (R88), so at least one behind its first. -/
theorem encode_wire_eq_cons {i : Instr} (h : i.channel = .request ∨ i.channel = .response) :
    ∃ x y bs, encode i = x :: y :: bs := by
  cases i with
  | wrqRead | wrqRelay | wrqIlock | wrsRead | wrsAck | wrsOther => exact ⟨_, _, _, rfl⟩
  | _ => simp [Instr.channel] at h

/-- The steps of a wire frame: the first byte as the instruction runs, the others from the line. -/
theorem run_wire_frame {i : Instr} {s : State} {x y : Byte} {bs : Frame}
    (h : i.channel = .request ∨ i.channel = .response) (henc : encode i = x :: y :: bs) :
    exec i s = .next ((s.withBlock (s.block.rxByte s.params x)).withInputs ((y :: bs).map lineCycle ++ s.inputs)) ∧
    Host.Core.run Sys2Proof.core (bs.length + 1)
        ((s.withBlock (s.block.rxByte s.params x)).withInputs ((y :: bs).map lineCycle ++ s.inputs)) =
      .next ((s.withBlock (s.block.rxBytes s.params (encode i))).withRdata none) := by
  constructor
  · rw [exec_frame h, henc, deliver_cons]
  · rw [run_lineCycles, henc]
    rfl

/-- Settles O47: `run_wire_frame`. -/
theorem wireFramesArriveByteByByte : Obligations.WireFramesArriveByteByByte := by
  unfold Obligations.WireFramesArriveByteByByte
  intro i s h
  obtain ⟨x, y, bs, henc⟩ := encode_wire_eq_cons h
  obtain ⟨hexec, hrun⟩ := run_wire_frame (s := s) h henc
  exact ⟨x, y :: bs, _, _, henc, exec_eq _ s, hexec, runInstrs_rxBytes _ s, hrun⟩

/-- Bytes that leave room in the frame extend it, and the silence restarts at each (R131). -/
theorem rxBytes_of_room {p : Params} {b : Block} (hen : b.en = true) (x : Byte) (bs : Frame)
    (hroom : b.asm.length + (x :: bs).length < p.maxFrame) :
    b.rxBytes p (x :: bs) = { b with asm := b.asm ++ x :: bs, sil := 0 } := by
  induction bs generalizing b x with
  | nil => exact rxByte_of_room hen (Nat.ne_of_lt hroom) x
  | cons y bs ih =>
    simp only [List.length_cons] at hroom
    rw [rxBytes_cons, rxByte_of_room hen (by omega), ih (b := b.acceptByte x) hen y (by simp; omega)]
    simp [Block.acceptByte]

/-- Settles O48: the bytes by `run_wire_frame`, the block they leave by `rxBytes_of_room`. -/
theorem wireFramesFillTheAssemblyBuffer : Obligations.WireFramesFillTheAssemblyBuffer := by
  unfold Obligations.WireFramesFillTheAssemblyBuffer
  intro i s h hen hasm hlen
  obtain ⟨x, y, bs, henc⟩ := encode_wire_eq_cons h
  obtain ⟨hexec, hrun⟩ := run_wire_frame (s := s) h henc
  refine ⟨_, hexec, ?_⟩
  rw [henc] at hrun hlen ⊢
  rw [rxBytes_of_room hen x _ (by rw [hasm]; simpa using hlen), hasm] at hrun
  exact hrun

end Sys2Proof.Machine
end

section
/-! The service discipline: a host that pops in time meets no full FIFO (R264). -/

namespace Sys2Proof.Machine

/-- From `b` to `c` no drop is recorded. -/
structure Block.NoDrop (b c : Block) : Prop where
  droperr : c.droperr = true → b.droperr = true
  cntDrop : c.cntDrop.toNat ≤ b.cntDrop.toNat

theorem Block.NoDrop.refl (b : Block) : b.NoDrop b := ⟨id, le_rfl⟩

theorem Block.NoDrop.trans {b c d : Block} (h : b.NoDrop c) (h' : c.NoDrop d) : b.NoDrop d :=
  ⟨fun hd => h.droperr (h'.droperr hd), h'.cntDrop.trans h.cntDrop⟩

/-- From `b` to `c` a frame comes to the FIFO test if `reaches`, and an entry is popped if `pops`: only a full FIFO
drops the frame, and the entries are counted (R133, R198). -/
structure Block.FifoStep (p : Params) (b : Block) (reaches pops : Bool) (c : Block) : Prop where
  noDrop : (reaches = true → b.fifo.length ≠ p.rxqDepth) → b.NoDrop c
  count : c.fifo.length + pops.toNat ≤ b.fifo.length + reaches.toNat

section FifoStep

variable {p : Params} {b : Block}

theorem Block.FifoStep.of_eq {c : Block} {reaches : Bool} (hdroperr : c.droperr = b.droperr)
    (hcnt : c.cntDrop = b.cntDrop) (hfifo : c.fifo = b.fifo) : b.FifoStep p reaches false c :=
  ⟨fun _ => ⟨fun h => hdroperr ▸ h, by rw [hcnt]⟩, by rw [hfifo, Bool.toNat_false]; omega⟩

theorem keepsFrame_iff (b : Block) : (frameCrcOk b.asm || !b.dropbad) = true ↔ b.KeepsFrame := by
  simp [Block.KeepsFrame]

theorem closeFrame_fifoStep (p : Params) (b : Block) :
    b.FifoStep p (frameCrcOk b.asm || !b.dropbad) false (b.closeFrame p) := by
  rw [closeFrame_eq]
  constructor
  · intro hroom
    rw [keepsFrame_iff] at hroom
    have hno : ¬ (b.KeepsFrame ∧ b.fifo.length = p.rxqDepth) := fun h => hroom h.1 h.2
    exact ⟨fun h => (if_neg hno).symm.trans h, le_of_eq (congrArg _ (if_neg hno))⟩
  · simp only [apply_ite List.length, List.length_append, List.length_singleton, Bool.toNat_false, Nat.add_zero]
    split
    · next hkept => rw [(keepsFrame_iff b).2 hkept.1, Bool.toNat_true]
    · omega

theorem reachesFifo_of_closing {e : Event} {f : Frame} (h : closingFrame p b e = some f) :
    reachesFifo p b e = (frameCrcOk f || !b.dropbad) := by
  rw [reachesFifo, h]

theorem rxByte_fifoStep (x : Byte) : b.FifoStep p (reachesFifo p b (.rxByte x)) false (b.rxByte p x) := by
  rcases rxByte_cases p x b with ⟨_, e⟩ | ⟨_, _, e⟩ | ⟨hen, hfull, e⟩ <;> rw [e]
  · exact .of_eq rfl rfl rfl
  · exact .of_eq rfl rfl rfl
  · rw [reachesFifo_of_closing (closingFrame_rxByte_of_full hen hfull x)]
    have h := closeFrame_fifoStep p (b.acceptByte x)
    exact ⟨fun hroom => { h.noDrop hroom with }, h.count⟩

theorem tick_fifoStep : b.FifoStep p (reachesFifo p b .tick) false (b.tick p) := by
  rcases tick_cases p b with ⟨_, e⟩ | ⟨_, _, e⟩ | ⟨hasm, hquiet, e⟩ <;> rw [e]
  · exact .of_eq rfl rfl rfl
  · exact .of_eq rfl rfl rfl
  · rw [reachesFifo_of_closing (closingFrame_tick_of_quiet hasm hquiet)]
    have h := closeFrame_fifoStep p b.countSilence
    exact ⟨fun hroom => { h.noDrop hroom with }, h.count⟩

/-- A pop of an entry, if there is one (R198). -/
theorem popFifo_fifoStep : b.FifoStep p false b.rxne b.popFifo := by
  refine ⟨fun _ => ⟨id, le_rfl⟩, ?_⟩
  cases h : b.fifo <;> simp [Block.rxne, h]

theorem instrBlock_fifoStep {i : Instr} (hi : i.channel = .command) :
    b.FifoStep p false (some i == some .rxPop && b.rxne) (instrBlock p i b) := by
  cases i with
  | rxPop => exact popFifo_fifoStep
  | cntClear => exact ⟨fun _ => ⟨id, Nat.zero_le _⟩, le_rfl⟩
  | rxByte | tick | wrqRead | wrqRelay | wrqIlock | wrsRead | wrsAck | wrsOther => cases hi
  | _ => exact .of_eq rfl rfl rfl

theorem hostWrite_fifoStep (off n : Nat) (v : Word) : b.FifoStep p false false (hostWrite off n v b) := by
  rcases hostWrite_cases off n v b with ⟨_, _, e⟩ | ⟨_, _, e⟩ | ⟨_, _, e⟩ | ⟨_, e⟩ <;> rw [e]
  · exact .of_eq rfl rfl rfl
  · exact .of_eq rfl rfl rfl
  · exact ⟨fun _ => ⟨fun h => (Bool.and_eq_true_iff.1 h).1, le_rfl⟩, le_rfl⟩
  · exact .of_eq rfl rfl rfl

theorem access_fifoStep (a : Access) :
    b.FifoStep p false (popsEntry b (.access a)) (eventBlock p (.access a) b) := by
  unfold popsEntry
  rcases eventBlock_cases p (.access a) b with ⟨i, hi, e⟩ | ⟨_, h, _⟩ | ⟨off, n, v, h, hcmd, e⟩ | ⟨off, n, h, e⟩
  · rw [e, hi]
    exact instrBlock_fifoStep (channel_of_access hi)
  · cases h
  · cases h
    rw [e, eventInstr, hcmd]
    exact hostWrite_fifoStep off n v
  · cases h
    exact .of_eq rfl rfl rfl

theorem eventBlock_fifoStep (p : Params) (b : Block) (e : Event) :
    b.FifoStep p (reachesFifo p b e) (popsEntry b e) (eventBlock p e b) := by
  cases e with
  | reset a => exact ⟨fun _ => ⟨fun h => (Bool.false_ne_true h).elim, Nat.zero_le _⟩, Nat.zero_le _⟩
  | access a => exact access_fifoStep a
  | rxByte x => exact rxByte_fifoStep x
  | tick => exact tick_fifoStep

end FifoStep

theorem afterEvent_eq (e : Event) (s : State) : afterEvent e s = eventState e s := by
  rw [afterEvent, stepEvent_eq]

theorem ite_succ_eq_add_toNat (c : Bool) (n : Nat) : (if c then n + 1 else n) = n + c.toNat := by
  cases c <;> rfl

/-- The FIFO holds no more than the frames that have reached it and are not yet popped, so a frame that a serviced
run lets reach it finds room (R264). -/
theorem noDrop_of_serviced (es : List Event) (s : State) {closed popped : Nat}
    (hcount : popped + s.block.fifo.length ≤ closed) (h : Serviced es s closed popped) :
    ∃ t, runEvents es s = .next t ∧ s.block.NoDrop t.block := by
  induction es generalizing s closed popped with
  | nil => exact ⟨s, rfl, .refl _⟩
  | cons e es ih =>
    obtain ⟨hroom, hrest⟩ := h
    obtain ⟨hdrop, hfifo⟩ := eventBlock_fifoStep s.params s.block e
    rw [afterEvent_eq] at hrest
    rw [← eventState_block] at hdrop hfifo
    simp only [ite_succ_eq_add_toNat] at hrest
    obtain ⟨t, hrun, ht⟩ := ih (eventState e s) (by omega) hrest
    refine ⟨t, by rw [runEvents, stepEvent_eq]; exact hrun, (hdrop fun hreach => ?_).trans ht⟩
    have := hroom hreach
    omega

/-- Settles O46: `noDrop_of_serviced` from an empty FIFO. -/
theorem servicedFifoNeverDrops : Obligations.ServicedFifoNeverDrops := by
  unfold Obligations.ServicedFifoNeverDrops
  intro s es _ hempty h
  obtain ⟨t, hrun, ht⟩ := noDrop_of_serviced es s (by simp [hempty]) h
  exact ⟨t, hrun, ht.droperr, ht.cntDrop⟩

end Sys2Proof.Machine
end

section
/-! What the host can read off the registers, and what it cannot (R40). -/

namespace Sys2Proof.Machine

section Hidden

variable {p : Params} {b b' : Block}

/-- The host sees of ASM its length alone, of the FIFO its length and its head, and nothing of SIL (R40). -/
theorem readReg_with_hidden (r : Reg) {asm : Frame} {fifo : List Frame} (sil : Half)
    (hasm : asm.length = b.asm.length) (hfifo : fifo.length = b.fifo.length) (hhead : fifo.head? = b.fifo.head?) :
    readReg p { b with asm := asm, sil := sil, fifo := fifo } r = readReg p b r := by
  cases r with
  | status =>
    simp only [readReg, statusWord, Block.rxne, Block.rxfull, Block.assembling, hasm, hfifo]
  | rxinfo | rxcrc | rxack | rxread | rxval | rxdata => exact headWord_congr hhead _
  | _ => rfl

theorem hostRead_with_hidden (off n : Nat) {asm : Frame} {fifo : List Frame} (sil : Half)
    (hasm : asm.length = b.asm.length) (hfifo : fifo.length = b.fifo.length) (hhead : fifo.head? = b.fifo.head?) :
    hostRead p { b with asm := asm, sil := sil, fifo := fifo } off n = hostRead p b off n := by
  simp only [hostRead, readReg_with_hidden _ sil hasm hfifo hhead]

theorem getLsbD_ctrlWord (b : Block) (i : Nat) :
    (ctrlWord b).getLsbD i =
      (decide (i = 0) && b.en || decide (i = 1) && b.ieRx || decide (i = 2) && b.ieErr ||
        decide (i = 3) && b.dropbad) := by
  simp only [ctrlWord, BitVec.getLsbD_or, getLsbD_flagBit]
  grind

theorem ctrlWord_inj (h : ctrlWord b = ctrlWord b') :
    b.en = b'.en ∧ b.ieRx = b'.ieRx ∧ b.ieErr = b'.ieErr ∧ b.dropbad = b'.dropbad := by
  have hbit (i : Nat) : (ctrlWord b).getLsbD i = (ctrlWord b').getLsbD i := by rw [h]
  simp only [getLsbD_ctrlWord] at hbit
  exact ⟨by simpa using hbit 0, by simpa using hbit 1, by simpa using hbit 2, by simpa using hbit 3⟩

/-- Words of two fields, the upper one above bit 16, are alike only when the fields are (R24, R36). -/
theorem halves_inj {m : Nat} (hm : m ≤ 16) {hi hi' : BitVec m} {lo lo' : Half}
    (h : ((hi.setWidth 32 <<< 16) ||| lo.setWidth 32 : Word) = (hi'.setWidth 32 <<< 16) ||| lo'.setWidth 32) :
    hi = hi' ∧ lo = lo' := by
  have hnat := congrArg BitVec.toNat h
  rw [toNat_halves hm, toNat_halves hm] at hnat
  have hlo := lo.isLt
  have hlo' := lo'.isLt
  exact ⟨BitVec.eq_of_toNat_eq (by omega), BitVec.eq_of_toNat_eq (by omega)⟩

theorem cfgWord_inj (h : cfgWord b = cfgWord b') : b.incount = b'.incount ∧ b.quiet = b'.quiet :=
  halves_inj (by decide) h

theorem cnt0Word_inj (h : cnt0Word b = cnt0Word b') :
    b.cntCrcerr = b'.cntCrcerr ∧ b.cntFrames = b'.cntFrames :=
  halves_inj (by decide) h

theorem cnt1Word_inj (h : cnt1Word b = cnt1Word b') : b.cntDrop = b'.cntDrop := by
  have hnat := congrArg BitVec.toNat h
  rw [cnt1Word_toNat, cnt1Word_toNat] at hnat
  exact BitVec.eq_of_toNat_eq hnat

theorem statusWord_inj (hp : p.Legal) (hb : b.Inv p) (hb' : b'.Inv p) (h : statusWord p b = statusWord p b') :
    b.cmderr = b'.cmderr ∧ b.droperr = b'.droperr ∧ b.crcerr = b'.crcerr ∧
      b.fifo.length = b'.fifo.length ∧ b.asm.length = b'.asm.length := by
  have hbit {i : Nat} (hi : i < 32) := (getLsbD_statusWord hp hb hi).symm.trans
    ((congrArg (BitVec.getLsbD · i) h).trans (getLsbD_statusWord hp hb' hi))
  refine ⟨by simpa using hbit (i := 4) (by decide), by simpa using hbit (i := 5) (by decide),
    by simpa using hbit (i := 6) (by decide), ?_, ?_⟩
  · rw [← statusWord_fifoCount hp hb, h, statusWord_fifoCount hp hb']
  · rw [← statusWord_asmCount hp hb, h, statusWord_asmCount hp hb']

/-- Words of a run that are alike have like bytes (R65). -/
theorem byteAt_eq_of_runWord_eq {s s' : Frame} {k : Nat} (h : runWord s k = runWord s' k) {j : Nat} (hj : j < 4) :
    byteAt s (k + j) = byteAt s' (k + j) := by
  rw [← runWord_lane s k hj, h, runWord_lane s' k hj]

/-- TX0 and TX1 show every byte of TXBUF (R29, R30). -/
theorem txbuf_inj {t t' : TxBuf} (h0 : runWord t.toFrame 0 = runWord t'.toFrame 0)
    (h1 : runWord t.toFrame 4 = runWord t'.toFrame 4) : t = t' := by
  have hlow {j : Nat} (hj : j < 4) := byteAt_eq_of_runWord_eq h0 hj
  have hhigh {j : Nat} (hj : j < 4) := byteAt_eq_of_runWord_eq h1 hj
  cases t
  cases t'
  simp only [TxBuf.mk.injEq]
  exact ⟨hlow (j := 0) (by decide), hlow (j := 1) (by decide), hlow (j := 2) (by decide), hlow (j := 3) (by decide),
    hhigh (j := 0) (by decide), hhigh (j := 1) (by decide), hhigh (j := 2) (by decide), hhigh (j := 3) (by decide)⟩

/-- RXINFO and the RXDATA window show the whole of a frame (R31, R38). -/
theorem frame_eq_of_rxinfo_of_window {f f' : Frame} (hf : f.length ≤ 256) (hf' : f'.length ≤ 256)
    (hinfo : rxinfoWord f = rxinfoWord f') (hwindow : ∀ w < 64, frameWindow f w = frameWindow f' w) : f = f' := by
  have hlen : f.length = f'.length := by rw [← rxinfoWord_len hf, hinfo, rxinfoWord_len hf']
  refine List.ext_getElem hlen fun i hi hi' => ?_
  have hbyte := byteAt_eq_of_runWord_eq (hwindow (i / 4) (by omega)) (show i % 4 < 4 by omega)
  rw [Nat.div_add_mod] at hbyte
  simpa [byteAt, hi, hi'] using hbyte

theorem head?_inj (hp : p.Legal) (hb : b.Inv p) (hb' : b'.Inv p) (hcount : b.fifo.length = b'.fifo.length)
    (h : ∀ off n, hostRead p b off n = hostRead p b' off n) : b.fifo.head? = b'.fifo.head? := by
  obtain ⟨⟨_, hcap⟩, _⟩ := hp
  obtain ⟨_, _, _, hframes, _⟩ := hb
  obtain ⟨_, _, _, hframes', _⟩ := hb'
  cases hq : b.fifo with
  | nil =>
    have hq' : b'.fifo = [] := List.length_eq_zero_iff.1 (by rw [← hcount, hq]; rfl)
    rw [hq']
  | cons f rest =>
    cases hq' : b'.fifo with
    | nil => simp [hq, hq'] at hcount
    | cons f' rest' =>
      have hlen := (hframes f (by simp [hq])).2
      have hlen' := (hframes' f' (by simp [hq'])).2
      refine congrArg some (frame_eq_of_rxinfo_of_window (by omega) (by omega) ?_ fun w hw => ?_)
      · simpa only [hostRead_rxinfo, headWord_of_cons hq, headWord_of_cons hq'] using h 0x020 4
      · simpa only [hostRead_rxdata _ _ hw, headWord_of_cons hq, headWord_of_cons hq'] using h (0x100 + 4 * w) 4

theorem txlen_inj (hb : b.Inv p) (hb' : b'.Inv p) (h : hostRead p b 0x014 4 = hostRead p b' 0x014 4) :
    b.txlen = b'.txlen := by
  obtain ⟨_, _, _, _, _, hlen, _⟩ := hb
  obtain ⟨_, _, _, _, _, hlen', _⟩ := hb'
  rw [hostRead_txinfo, hostRead_txinfo] at h
  rcases hlen with e | e <;> rcases hlen' with e' | e' <;> simp_all

/-- Blocks that read alike agree on everything the registers show (R40). -/
theorem shown_of_hostRead_eq (hp : p.Legal) (hb : b.Inv p) (hb' : b'.Inv p)
    (h : ∀ off n, hostRead p b off n = hostRead p b' off n) :
    b.asm.length = b'.asm.length ∧ b.fifo.length = b'.fifo.length ∧ b.fifo.head? = b'.fifo.head? ∧
      b = { b' with asm := b.asm, sil := b.sil, fifo := b.fifo } := by
  obtain ⟨hen, hrx, herr, hbad⟩ := ctrlWord_inj (h 0x000 4)
  obtain ⟨hincount, hquiet⟩ := cfgWord_inj (h 0x004 4)
  obtain ⟨hcmderr, hdroperr, hcrcerr, hfifo, hasm⟩ := statusWord_inj hp hb hb' (h 0x00C 4)
  have hcrc : b.crc = b'.crc := by
    apply BitVec.eq_of_toNat_eq
    rw [← hostRead_crc_toNat p, h, hostRead_crc_toNat]
  have htxlen := txlen_inj hb hb' (h 0x014 4)
  have htxbuf := txbuf_inj (h 0x018 4) (h 0x01C 4)
  obtain ⟨hcntCrcerr, hcntFrames⟩ := cnt0Word_inj (h 0x040 4)
  have hcntDrop := cnt1Word_inj (h 0x044 4)
  refine ⟨hasm, hfifo, head?_inj hp hb hb' hfifo h, ?_⟩
  rw [← hen, ← hrx, ← herr, ← hbad, ← hincount, ← hquiet, ← hcrc, ← htxlen, ← htxbuf, ← hcmderr, ← hdroperr,
    ← hcrcerr, ← hcntCrcerr, ← hcntFrames, ← hcntDrop]

end Hidden

/-- Settles O24: one way by `shown_of_hostRead_eq`, the other by `hostRead_with_hidden`. -/
theorem onlyTheListedStateIsHidden : Obligations.OnlyTheListedStateIsHidden := by
  unfold Obligations.OnlyTheListedStateIsHidden
  intro p b b' hp hb hb'
  refine ⟨shown_of_hostRead_eq hp hb hb', fun ⟨hasm, hfifo, hhead, heq⟩ off n => ?_⟩
  rw [heq]
  exact hostRead_with_hidden off n b.sil hasm hfifo hhead

end Sys2Proof.Machine
end
